-- ==== Sys2Proof/Word.lean ====
section
/-! DEFINITION. The word types of the block: a byte of a master link, coach time, the generation. -/
namespace Sys2Proof

/-- One byte on a master link (R186, R187). -/
abbrev Byte := BitVec 8

/-- Coach time: a 32-bit count of milliseconds that wraps (Introduction, R22). -/
abbrev CoachTime := BitVec 32

/-- The generation: a 32-bit number that wraps (R16). -/
abbrev Generation := BitVec 32

end Sys2Proof
end

