-- ==== Sys2Proof/Syntax.lean ====
section
/-! DEFINITION. The names of the block (links, groups, lines, channels, fault codes) and its commands: Instr has one
constructor per row of spec/opcode_table.json, with that row's operands. -/
namespace Sys2Proof

/-! ## Names the commands use -/

/-- The three master links (Introduction). -/
inductive Link | ml0 | ml1 | ml2
  deriving DecidableEq, Repr

/-- The four requesters (Introduction): the links and the line map. -/
inductive Requester | link (l : Link) | wl
  deriving DecidableEq, Repr

/-- The eight groups (Introduction): ROOM0 to ROOM5, JACKS, AWNING. -/
inductive Group | room (n : Fin 6) | jacks | awning
  deriving DecidableEq, Repr

/-- The subject of a fault record (R171). -/
inductive Subject | group (g : Group) | coach
  deriving DecidableEq, Repr

/-- FULL runs to the end of travel or a target; HOLD only while it is held (Introduction, Modes). -/
inductive Mode | full | hold
  deriving DecidableEq, Repr

/-- Direction of a room or the awning: OUT or IN (R98, R144). -/
inductive Direction | outward | inward
  deriving DecidableEq, Repr

/-- Direction of a jog, and the two open positions of a jack valve (R76, R122). -/
inductive JackDir | up | down
  deriving DecidableEq, Repr

/-- The two ends of a room (Chapter 6). -/
inductive RoomEnd | a | b
  deriving DecidableEq, Repr

/-- The two lock switches of a room (R85). -/
inductive LockSwitch | engaged | withdrawn
  deriving DecidableEq, Repr

/-- The two tilt channels (R94): TILT_X is pitch, TILT_Y roll. -/
inductive TiltAxis | x | y
  deriving DecidableEq, Repr

/-- The nineteen axes that have a counter (R86). -/
inductive Axis | roomEnd (n : Fin 6) (e : RoomEnd) | jack (j : Fin 6) | awning
  deriving DecidableEq, Repr

/-- The 24 lines: L0-L15 and V0-V7 (R156). -/
inductive Line | wired (n : Fin 16) | virtual (n : Fin 8)
  deriving DecidableEq, Repr

/-- A level of a wired line (R156). -/
inductive Level | high | low
  deriving DecidableEq, Repr

/-- Polarity of a wired entry (R156). -/
inductive Polarity | activeHigh | activeLow
  deriving DecidableEq, Repr

/-- Trigger of an entry (R156). -/
inductive Trigger | edge | level
  deriving DecidableEq, Repr

/-- Mask of an entry (R156). -/
inductive Mask | masked | unmasked
  deriving DecidableEq, Repr

/-- The two chassis inputs a POSTURE entry may feed (R156). -/
inductive ChassisInput | park | ign
  deriving DecidableEq, Repr

/-- Commands of a room entry (R156). -/
inductive RoomCommand | extend | retract | stop
  deriving DecidableEq, Repr

/-- Commands of a JACKS entry (R156). -/
inductive JackCommand | auto | retract | stop
  deriving DecidableEq, Repr

/-- Commands of an AWNING entry (R156). -/
inductive AwningCommand | outward | inward | stop
  deriving DecidableEq, Repr

/-- The action of a map entry (R156): NONE; MOTION(group, command); NOTICE; POSTURE(PARK or IGN). -/
inductive MapAction
  | none
  | roomMotion (n : Fin 6) (k : RoomCommand)
  | jackMotion (k : JackCommand)
  | awningMotion (k : AwningCommand)
  | notice
  | posture (i : ChassisInput)
  deriving DecidableEq, Repr

/-- The route of a map entry (R156): a set of zero to three links, or LEAST_ATTENTION. -/
inductive Route | links (ml0 ml1 ml2 : Bool) | leastAttention
  deriving DecidableEq, Repr

/-- One field of a MAP_WRITE with its value (R166, R191). -/
inductive MapField
  | polarity (v : Polarity)
  | debounce (ms : Nat)
  | trigger (v : Trigger)
  | mask (v : Mask)
  | action (v : MapAction)
  | route (v : Route)
  deriving DecidableEq, Repr

/-- The eleven sections of the coach profile (Section 1.2), in the check order of R7. -/
inductive Section | general | room (n : Fin 6) | jacks | awning | timing | lines
  deriving DecidableEq, Repr

/-! ## The output image (R76): what a frame and an echo carry -/

/-- A jack valve channel: UP, DOWN or OFF. -/
inductive JackValve | up | down | off
  deriving DecidableEq, Repr

/-- A room valve channel: EXTEND, RETRACT or OFF. -/
inductive RoomValve | extend | retract | off
  deriving DecidableEq, Repr

/-- The direction of a motor channel: OUT, IN or NONE. -/
inductive MotorDir | outward | inward | none
  deriving DecidableEq, Repr

/-- A motor channel: direction and duty in percent. -/
structure Motor where
  dir  : MotorDir := .none
  duty : Nat := 0
  deriving DecidableEq, Repr

/-- The two circuits of the manifold, the values of the DIVERTER channel. -/
inductive Circuit | room | jack
  deriving DecidableEq, Repr

/-- The output image: the 33 channels of R76. -/
structure Image where
  pump        : Bool := false
  diverter    : Circuit := .room
  jackValve   : Vector JackValve 6 := Vector.replicate 6 .off
  roomValve   : Vector RoomValve 6 := Vector.replicate 6 .off
  motorA      : Vector Motor 6 := Vector.replicate 6 {}
  motorB      : Vector Motor 6 := Vector.replicate 6 {}
  awningMotor : Motor := {}
  pin         : Vector Bool 6 := Vector.replicate 6 false
  deriving DecidableEq, Repr

/-- One board of the chain as an echo shows it (R80): its board-hot flag and the channels it latches, by their
place in the channel order. -/
structure Board where
  hot      : Bool
  channels : List (Fin 33)
  deriving DecidableEq, Repr

/-- An echo (R80): the latched value of every channel, the channels whose trip flag is set, and the boards along
the chain, counted from the part. -/
structure Echo where
  latched : Image
  trips   : List (Fin 33)
  boards  : List Board
  deriving DecidableEq, Repr

/-- The levels the input pins show at the end of a reset (R1, R14, R85, R157): true is high, asserted or made. -/
structure ResetPins where
  jacks6        : Bool := false
  supply24      : Bool := false
  estop         : Bool := false
  lines         : Vector Level 16 := Vector.replicate 16 .low
  inSwitchA     : Vector Bool 6 := Vector.replicate 6 false
  inSwitchB     : Vector Bool 6 := Vector.replicate 6 false
  pinEngaged    : Vector Bool 6 := Vector.replicate 6 false
  pinWithdrawn  : Vector Bool 6 := Vector.replicate 6 false
  jackStowed    : Vector Bool 6 := Vector.replicate 6 false
  awningStowed  : Bool := false
  deriving DecidableEq, Repr

/-! ## Requests -/

/-- A request as a port queues it (11.6): the 26 kinds with their parameters; or a frame that R191 refuses BAD_REQUEST,
kept with its KIND; or a frame of the right length whose section, line, value or subject names nothing, of a KIND whose
own rule says where that refusal stands among its others (R4, R166, R181). -/
inductive Request
  | ping
  | linkStatus
  | profileStage (sec : Section) (entries : List (Nat × Int))
  | profileCommit
  | profileAbandon
  | profileGet (sec : Section)
  | postureGet
  | claim (groups : List Group) (wait : Bool) (gen : Option Generation)
  | release (groups : List Group)
  | roomMove (g : Group) (d : Direction) (mode : Mode) (target : Option Int) (gen : Option Generation)
  | roomStop (g : Group)
  | jackAuto (mode : Mode) (gen : Option Generation)
  | jackSeek (mode : Mode) (gen : Option Generation)
  | jackJog (jacks : List (Fin 6)) (d : JackDir) (mode : Mode) (gen : Option Generation)
  | jackRetract (mode : Mode) (gen : Option Generation)
  | jackStop
  | awningMove (d : Direction) (mode : Mode) (percent : Option Nat) (gen : Option Generation)
  | awningStop
  | stopAll
  | holdRefresh (g : Group)
  | attentionSet (level : Nat)
  | linesSet (sel : List (Line × Bool))
  | mapWrite (line : Line) (fields : List MapField)
  | mapRead (line : Line)
  | faultGet (subject : Option Subject)
  | faultClear (subject : Subject)
  | malformed (kind : Byte)
  | unnamed (kind : Byte)
  deriving DecidableEq, Repr

/-! ## Commands -/

/-- The commands of the block, one constructor per row of spec/opcode_table.json, in the table's order. A request
row carries the link, the TAG and the parameters of the request (log 4). -/
inductive Instr
  | powerOnReset (pins : ResetPins)
  | xrst (pins : ResetPins)
  | validFrameReceipt (l : Link) (kind tag : Byte) (payload : List Byte)
  | crcMismatchDiscard (l : Link)
  | lengthDiscard (l : Link)
  | partialFrameTimeout (l : Link)
  | lineBreak (l : Link)
  | framingError (l : Link)
  | receiverOverrun (l : Link)
  | transmitFrameEnd (l : Link)
  | silenceDeadline (l : Link)
  | ping (l : Link) (tag : Byte)
  | linkStatus (l : Link) (tag : Byte)
  | profileStage (l : Link) (tag : Byte) (sec : Section) (entries : List (Nat × Int))
  | profileCommit (l : Link) (tag : Byte)
  | profileAbandon (l : Link) (tag : Byte)
  | profileGet (l : Link) (tag : Byte) (sec : Section)
  | postureGet (l : Link) (tag : Byte)
  | claim (l : Link) (tag : Byte) (groups : List Group) (wait : Bool) (gen : Option Generation)
  | release (l : Link) (tag : Byte) (groups : List Group)
  /-- `entry` is the place of the wait entry in the claim wait list, 0 the oldest. -/
  | preemptionTimeReached (entry : Nat)
  /-- `entry` is the place of the wait entry in the claim wait list, 0 the oldest. -/
  | claimWaitDeadline (entry : Nat)
  | roomMove (l : Link) (tag : Byte) (g : Group) (d : Direction) (mode : Mode) (target : Option Int)
      (gen : Option Generation)
  | roomStop (l : Link) (tag : Byte) (g : Group)
  | jackAuto (l : Link) (tag : Byte) (mode : Mode) (gen : Option Generation)
  | jackSeek (l : Link) (tag : Byte) (mode : Mode) (gen : Option Generation)
  | jackJog (l : Link) (tag : Byte) (jacks : List (Fin 6)) (d : JackDir) (mode : Mode) (gen : Option Generation)
  | jackRetract (l : Link) (tag : Byte) (mode : Mode) (gen : Option Generation)
  | jackStop (l : Link) (tag : Byte)
  | awningMove (l : Link) (tag : Byte) (d : Direction) (mode : Mode) (percent : Option Nat)
      (gen : Option Generation)
  | awningStop (l : Link) (tag : Byte)
  | stopAll (l : Link) (tag : Byte)
  | holdRefresh (l : Link) (tag : Byte) (g : Group)
  | attentionSet (l : Link) (tag : Byte) (level : Nat)
  | linesSet (l : Link) (tag : Byte) (sel : List (Line × Bool))
  | mapWrite (l : Link) (tag : Byte) (line : Line) (fields : List MapField)
  | mapRead (l : Link) (tag : Byte) (line : Line)
  /-- `none` stands for ALL. -/
  | faultGet (l : Link) (tag : Byte) (subject : Option Subject)
  | faultClear (l : Link) (tag : Byte) (subject : Subject)
  /-- The reading in 0.01 V; a reading outside 0-4000 is one the channel reports out of range. -/
  | vbatSample (v : Int)
  /-- The reading in 0.1 A; out of range outside 0-4000. -/
  | ibusSample (v : Int)
  /-- The reading in 0.1 bar; out of range outside 0-3000. -/
  | pmanSample (v : Int)
  /-- The reading of PJ`j` in 0.1 bar; out of range outside 0-3000. -/
  | pjSample (j : Fin 6) (v : Int)
  /-- The reading in 0.01 degree; out of range outside -1500 to 1500. -/
  | tiltSample (axis : TiltAxis) (v : Int)
  | roadSpeedWindowEnd
  | estopAsserted
  | estopReleased
  | spdPulse
  | inSwitchChange (n : Fin 6) (e : RoomEnd) (made : Bool)
  | lockSwitchChange (n : Fin 6) (sw : LockSwitch) (made : Bool)
  | jackStowedSwitchChange (j : Fin 6) (made : Bool)
  | awningStowedSwitchChange (made : Bool)
  | axisPulse (a : Axis)
  | stall (a : Axis)
  | anemometerPulse
  | windSecondBoundary
  /-- The input of L`n` shows `level` and has shown it without a break since coach time `since`. -/
  | lineDebounceChange (n : Fin 16) (level : Level) (since : CoachTime)
  | virtualLineDeadline (v : Fin 8)
  | periodicFrameStart
  | echoReceived (e : Echo)
  | echoMissing
  | pinTimeout (n : Fin 6)
  | roomDwellEnd (n : Fin 6)
  | awningDwellEnd
  | holdDeadlineExpiry (g : Group)
  | seekTimeout
  | settleEnd
  | liftDeadline
  | retractTimeout
  | switchingEnd
  | heatRise
  | heatFall
  | byteReceived (l : Link) (b : Byte)
  deriving DecidableEq, Repr

end Sys2Proof
end

