-- ==== Sys2Proof/Decode.lean ====
section
/-! DEFINITION. The command a word of spec/opcode_table.json spells. No row of the table gives bits, so no word spells
one. -/
namespace Sys2Proof

/-- The command whose row of the table has `nbits` bits and the value `w`: none, since no row gives bits. -/
def decodeTableWord (_nbits _w : Nat) : Option Instr := none

end Sys2Proof
end

