-- ==== Sys2Proof/Config.lean ====
section
/-! DEFINITION. What the part fixes once and for all: the times and bounds the rules state as numbers, and the
two free values (opaque constants with no body: nothing can evaluate them). -/
namespace Sys2Proof.Config

/-- Free value (log 11): what the average of a tilt row reads as while the row is not full (R126 defines the
average of a full row alone). -/
opaque partialRowAverage : List Int → Int

/-- Free value (log 12): what the quotient constant / period is when the period is 0 ms (R148 divides by it). The
bound of 200 km/h that R148 sets is applied to it all the same. -/
opaque zeroPeriodSpeed : Nat → Nat

/-- R186: a partial frame is given up 5 ms after its last byte. -/
abbrev byteGapMs : Nat := 5
/-- R186: the start byte. -/
abbrev startByte : Byte := 0xC3#8
/-- R186: the least LEN. -/
abbrev lenMin : Nat := 2
/-- R186: the greatest LEN. -/
abbrev lenMax : Nat := 58
/-- R188: requests a receive queue holds. -/
abbrev rxMax : Nat := 4
/-- R189: QUEUE_FULL responses a response line holds. -/
abbrev queueFullMax : Nat := 4
/-- R189: held clears at which a port takes no further request. -/
abbrev heldMax : Nat := 4
/-- R188, R192: notices a notice queue holds. -/
abbrev noticeMax : Nat := 16
/-- R190: bytes of data in one segment. -/
abbrev segmentData : Nat := 53
/-- R186: a tally stays at 65535. -/
abbrev tallyMax : Nat := 65535
/-- R26: wait entries of one link. -/
abbrev waitPerLink : Nat := 2
/-- R63: a diverter movement. -/
abbrev switchingMs : Nat := 300
/-- R69: one rise of the heat count. -/
abbrev heatRiseMs : Nat := 100
/-- R69: one fall of the heat count. -/
abbrev heatFallMs : Nat := 300
/-- R70: the heat count at which the pump cools. -/
abbrev heatMax : Nat := 1800
/-- R71: the heat count at which cooling ends. -/
abbrev heatResume : Nat := 900
/-- R78, R80: frame period, and the time a frame waits for its echo. -/
abbrev framePeriodMs : Nat := 10
/-- R80: failures that raise CHAIN_ECHO. -/
abbrev mismatchMax : Nat := 2
/-- R92: the stall grace. -/
abbrev stallGraceMs : Nat := 300
/-- R92: the stall window of a jack and of the awning. -/
abbrev stallWindowMs : Nat := 600
/-- R103: the count at which the pin of an extending room is released. -/
abbrev pinReleaseCount : Int := 100
/-- R104: the drift above which HOME_CORRECTED is sent. -/
abbrev homeDrift : Nat := 50
/-- R108, R146, R151: a reverse dwell. -/
abbrev dwellMs : Nat := 500
/-- R127: a settle. -/
abbrev settleMs : Nat := 1000
/-- R128: the longest lift. -/
abbrev liftMs : Nat := 5000
/-- R127: the last pass. -/
abbrev passMax : Nat := 12
/-- R126: samples of a full tilt row. -/
abbrev tiltRow : Nat := 8
/-- R137: drift confirmed. -/
abbrev driftMs : Nat := 60000
/-- R46: undervolt confirmed. -/
abbrev undervoltMs : Nat := 1000
/-- R57: overload confirmed. -/
abbrev overloadMs : Nat := 500
/-- R53: how long a consumer shed for overload waits at least. -/
abbrev overloadWaitMs : Nat := 2000
/-- R73: overpressure confirmed. -/
abbrev overpressureMs : Nat := 200
/-- R15, R148: the road-speed window and the wind second. -/
abbrev secondMs : Nat := 1000
/-- R148: the longest period that gives a speed. -/
abbrev windPeriodMs : Nat := 2000
/-- R149: entries of the second ring. -/
abbrev windRing : Nat := 30
/-- R154: counts above the stroke at which the awning overruns. -/
abbrev overrunCounts : Int := 50

end Sys2Proof.Config
end

