-- ==== Sys2Proof/Machine/Profile.lean ====
section
/-! DEFINITION. The coach profile (Chapter 1): the slots of the staging area, their initial contents, the checks of
a commit, and the names under which the units read the fields. -/
namespace Sys2Proof.Machine

/-- The straps sampled at a reset (R1). -/
structure Straps where
  jacks6   : Bool
  supply24 : Bool
  deriving DecidableEq, Repr

/-- One value slot (R3): a value, or empty. -/
abbrev Slot := Option Int

/-- The slots of one section, by field index. -/
abbrev SectionSlots := List Slot

/-- A whole staging area, or a committed profile (R3, R8). -/
structure Slots where
  general : SectionSlots
  rooms   : Vector SectionSlots 6
  jacks   : SectionSlots
  awning  : SectionSlots
  timing  : SectionSlots
  lines   : SectionSlots
  deriving DecidableEq, Repr

/-- The slots of one section. -/
def Slots.sectionSlots (p : Slots) : Section → SectionSlots
  | .general => p.general
  | .room n => p.rooms[n]
  | .jacks => p.jacks
  | .awning => p.awning
  | .timing => p.timing
  | .lines => p.lines

/-- One slot; a field index that does not exist reads as empty. -/
def Slots.slot (p : Slots) (sec : Section) (i : Nat) : Slot :=
  (p.sectionSlots sec).getD i none

/-- The same area with one section replaced. -/
def Slots.withSection (p : Slots) (sec : Section) (v : SectionSlots) : Slots :=
  match sec with
  | .general => { p with general := v }
  | .room n => { p with rooms := p.rooms.set n v }
  | .jacks => { p with jacks := v }
  | .awning => { p with awning := v }
  | .timing => { p with timing := v }
  | .lines => { p with lines := v }

/-- The jack count of the strap JACKS6 (R1). -/
def strapJackCount (st : Straps) : Nat := if st.jacks6 then 6 else 4

/-- The initial contents of one section (R3, with the defaults of R9 to R13). -/
def initialSection (st : Straps) : Section → SectionSlots
  | .general =>
    [some (if st.supply24 then 1000 else 1500), some (if st.supply24 then 2440 else 1220),
     some (if st.supply24 then 2160 else 1080), some 600, some 2000, some 8000, some 0x020100, some 1]
  | .room _ =>
    [some 0, none, none, some 0, some 0, none, none, none, some 600, some 200, some 20, some 80, some 1]
  | .jacks => [some (strapJackCount st : Int), some 250, none, some 30, some 60, some 30]
  | .awning => [some 0, none, none, none, some 2500, some 40, some 30, some 15]
  | .timing => [some 300, some 3000, some 30, some 20, some 2000]
  | .lines => [some 0, some 0, some 1, some 0]

/-- The initial contents of the staging area (R3). -/
def initialSlots (st : Straps) : Slots where
  general := initialSection st .general
  rooms := Vector.ofFn fun n => initialSection st (.room n)
  jacks := initialSection st .jacks
  awning := initialSection st .awning
  timing := initialSection st .timing
  lines := initialSection st .lines

/-- How many fields a section has (R9 to R13). -/
def fieldCount : Section → Nat
  | .general => 8
  | .room _ => 13
  | .jacks => 6
  | .awning => 8
  | .timing => 5
  | .lines => 4

/-- A field's value as the units read it; an empty slot, which no unit reads in RUN, as 0. -/
def Slots.int (p : Slots) (sec : Section) (i : Nat) : Int := (p.slot sec i).getD 0

/-- A field's value as a natural number. -/
def Slots.nat (p : Slots) (sec : Section) (i : Nat) : Nat := (p.int sec i).toNat

/-- Whether the present field of a ROOM n or AWNING section is yes (R10, R12). -/
def Slots.declares (p : Slots) (sec : Section) : Bool := p.slot sec 0 == some 1

/-! ## Staging (R4) -/

/-- Whether a section has a present field, and where it stands: ROOM n and AWNING, field 0. -/
def sectionHasPresent : Section → Bool
  | .room _ => true
  | .awning => true
  | _ => false

/-- The section after its slots took the listed values, later fields of the list over earlier ones. -/
def writeFields (v : SectionSlots) (es : List (Nat × Int)) : SectionSlots :=
  es.foldl (fun v e => v.set e.1 (some e.2)) v

/-- Whether a PROFILE_STAGE list is well formed for its section (R4, R191): one field or more, each index in the
section, none twice, and no value the one that stands for an empty slot. -/
def stageListOk (sec : Section) (es : List (Nat × Int)) : Bool :=
  !es.isEmpty && es.all (fun e => e.1 < fieldCount sec && e.2 != -2147483648)
    && decide (es.map Prod.fst).Nodup

/-- One PROFILE_STAGE on the staging area (R4): a list that does not name the present field of a ROOM n or AWNING
section sets it to yes; a list that sets it to no returns the section to its initial content. -/
def Slots.stage (st : Straps) (p : Slots) (sec : Section) (es : List (Nat × Int)) : Slots :=
  if sectionHasPresent sec then
    match es.find? (fun e => e.1 == 0) with
    | none => p.withSection sec (writeFields (p.sectionSlots sec) ((0, 1) :: es))
    | some (_, 0) => p.withSection sec (initialSection st sec)
    | some _ => p.withSection sec (writeFields (p.sectionSlots sec) es)
  else p.withSection sec (writeFields (p.sectionSlots sec) es)

/-! ## The checks of a commit (R7, R9 to R13) -/

/-- Why a field offends (R7). -/
inductive OffenceReason | missing | range | relation
  deriving DecidableEq, Repr

/-- One field's check (R7): an empty slot offends if the field is required, then the range, then the relation. DESIGN
CHOICE (log 61): a value that offends against both is reported with RANGE. -/
def checkField (s : Slot) (required : Bool) (range relation : Int → Bool) : Option OffenceReason :=
  match s with
  | none => if required then some .missing else none
  | some v => if !range v then some .range else if !relation v then some .relation else none

/-- A range written `lo–hi`. -/
def within (lo hi : Int) (v : Int) : Bool := decide (lo ≤ v ∧ v ≤ hi)

/-- The rank table names each of the three links once: three link numbers, highest rank first, from the lowest byte
up (R9, R191). -/
def rankTableOk (v : Int) : Bool :=
  let bytes := [v.toNat % 256, v.toNat / 256 % 256, v.toNat / 65536]
  decide (0 ≤ v) && bytes.all (fun b => b < 3) && decide bytes.Nodup

/-- The checks of one section in field-index order, each with its field index (R9 to R13). In a ROOM n or AWNING
section whose present field is not yes the checks are limited to that field (R7). -/
def sectionChecks (st : Straps) (p : Slots) (sec : Section) : List (Nat × Option OffenceReason) :=
  let f := p.slot sec
  let v := p.int sec
  let any : Int → Bool := fun _ => true
  match sec with
  | .general =>
    [(0, checkField (f 0) true (within 500 3000) any),
     (1, checkField (f 1) true (if st.supply24 then within 2000 2900 else within 1000 1450) any),
     (2, checkField (f 2) true (if st.supply24 then within 1800 2850 else within 900 1400)
        (fun x => decide (x ≤ v 1 - 50))),
     (3, checkField (f 3) true (within 200 1500) any),
     (4, checkField (f 4) true (within 1500 2500) any),
     (5, checkField (f 5) true (within 1000 20000) any),
     (6, checkField (f 6) true rankTableOk any),
     (7, checkField (f 7) true (within 0 1) any)]
  | .room _ =>
    let present := (0, checkField (f 0) true (within 0 1) any)
    if v 0 != 1 then [present] else
    let electric := v 1 == 1
    [present,
     (1, checkField (f 1) true (within 0 1) any),
     (2, checkField (f 2) true (within 0 1) any),
     (3, checkField (f 3) true (within 0 1)
        (fun x => x != 1 || (v 2 == 0 && p.declares .awning))),
     (4, checkField (f 4) true (within 0 1) any),
     (5, checkField (f 5) true (within 100 20000) any),
     (6, if electric then checkField (f 6) true (within 50 600) any else none),
     (7, if v 4 == 1 then checkField (f 7) true (within 5 80) any else none),
     (8, checkField (f 8) true (within 100 2000) any),
     (9, checkField (f 9) true (within 0 2000) (fun x => decide (2 * x ≤ v 5))),
     (10, if electric then checkField (f 10) true (within 5 200) any else none),
     (11, if electric then checkField (f 11) true (within 20 500) (fun x => decide (v 10 < x)) else none),
     (12, checkField (f 12) true (within 0 1) any)]
  | .jacks =>
    [(0, checkField (f 0) true (fun x => x == 4 || x == 6) (fun x => x == (strapJackCount st : Int))),
     (1, checkField (f 1) true (within 50 600) any),
     (2, checkField (f 2) true (within 500 30000) any),
     (3, checkField (f 3) true (within 5 60) any),
     (4, checkField (f 4) true (within 10 120) any),
     (5, checkField (f 5) true (within 5 100) any)]
  | .awning =>
    let present := (0, checkField (f 0) true (within 0 1) any)
    if v 0 != 1 then [present] else
    [present,
     (1, checkField (f 1) true (within 100 20000) any),
     (2, checkField (f 2) true (within 30 400) any),
     (3, checkField (f 3) false (within 30 600) (fun x => decide (v 2 ≤ x))),
     (4, checkField (f 4) true (within 100 60000) any),
     (5, checkField (f 5) true (within 20 80) any),
     (6, checkField (f 6) true (within 15 60) (fun x => decide (x ≤ v 5))),
     (7, checkField (f 7) true (within 5 60) any)]
  | .timing =>
    [(0, checkField (f 0) true (within 100 1000) any),
     (1, checkField (f 1) true (within 1000 10000) any),
     (2, checkField (f 2) true (within 5 120) any),
     (3, checkField (f 3) true (fun x => x == 0 || within 5 60 x) any),
     (4, checkField (f 4) true (within 500 5000) any)]
  | .lines =>
    [(0, checkField (f 0) true (within 0 15) any),
     (1, checkField (f 1) true (within 0 1) any),
     (2, checkField (f 2) true (within 0 15) (fun x => x != v 0)),
     (3, checkField (f 3) true (within 0 1) any)]

/-- The sections in the check order of R7, which is also their numbering 0-10 (R191). -/
def allSections : List Section :=
  [.general, .room 0, .room 1, .room 2, .room 3, .room 4, .room 5, .jacks, .awning, .timing, .lines]

/-- The first field that offends, with its section, its index and the reason (R7). -/
def firstOffence (st : Straps) (p : Slots) : Option (Section × Nat × OffenceReason) :=
  allSections.findSome? fun sec =>
    (sectionChecks st p sec).findSome? fun c => c.2.map fun r => (sec, c.1, r)

/-- The profile a successful commit installs (R8): the staging area, with an empty reserve slot of a present awning
committed as the draw (R12). -/
def Slots.committed (p : Slots) : Slots :=
  if p.declares .awning && (p.slot .awning 3).isNone then
    p.withSection .awning (p.awning.set 3 (p.slot .awning 2))
  else p

end Sys2Proof.Machine
end

