-- ==== Sys2Proof/Machine/State.lean ====
section
/-! DEFINITION. The state of the SB4-620 as plain data, its value after a power-on reset, and the stop reasons.

State has four parts. `pending` is the queue of commands (the model's own). `m : Measured` is what only the outside
events and the part's timers write (inputs, counters, measurements). `c : Setup` is what requests and lines write
(profile, line map, receivers). `u : Units` is what the units' reactions write (motions, claims, budget, image,
faults, queues of the transmitters). -/
namespace Sys2Proof.Machine

/-! ## Inputs and measurements -/

/-- Whether a sense channel's last sample was in range (R47, R74, R140). `undecided` stands for a channel whose
present mark was kept over an XRST and whose deciding sample has not come (R184, log 16). -/
inductive ChannelRange | inRange | outOfRange | undecided
  deriving DecidableEq, Repr

/-- One axis counter without its drive-on stamp (R86): count, validity, last-pulse stamp. -/
structure Counter where
  count     : Int := 0
  valid     : Bool := false
  lastPulse : Option CoachTime := none
  deriving DecidableEq, Repr

/-- The four switches of a room (R85); true is made. -/
structure RoomSwitches where
  inA       : Bool := false
  inB       : Bool := false
  engaged   : Bool := false
  withdrawn : Bool := false
  deriving DecidableEq, Repr

/-- The wind monitor (R148, R149). -/
structure WindMonitor where
  lastPulse   : Option CoachTime := none
  lastSpeed   : Option Nat := none
  speeds      : List Nat := []
  ring        : List Nat := []
  hold        : Bool := false
  lastWindy   : Option CoachTime := none
  secondStart : CoachTime := 0
  deriving DecidableEq, Repr

/-- What only the outside events and timers write. -/
structure Measured where
  now          : CoachTime
  straps       : Straps
  estop        : Bool
  roadSpeed    : Nat := 0
  spdCount     : Nat := 0
  windowStart  : CoachTime
  bLim         : Nat
  undervolt    : Option CoachTime := none
  vbatRange    : ChannelRange := .inRange
  ibusRange    : ChannelRange := .inRange
  pmanRange    : ChannelRange := .inRange
  overpressure : Option CoachTime := none
  heat         : Nat := 0
  lastEcho     : Option Echo := none
  mismatch     : Nat := 0
  counterA     : Vector Counter 6
  counterB     : Vector Counter 6
  counterJ     : Vector Counter 6
  counterAw    : Counter
  roomSw       : Vector RoomSwitches 6
  jackStowed   : Vector Bool 6
  awningStowed : Bool
  pjLast       : Vector (Option Int) 6 := Vector.replicate 6 none
  pjRange      : Vector ChannelRange 6 := Vector.replicate 6 .inRange
  tiltX        : List Int := []
  tiltY        : List Int := []
  tiltXRange   : ChannelRange := .inRange
  tiltYRange   : ChannelRange := .inRange
  wind         : WindMonitor
  deriving DecidableEq, Repr

/-! ## Profile, line map, receivers -/

/-- CONFIG before, RUN after a successful profile commit (R2). -/
inductive Phase | config | run
  deriving DecidableEq, Repr

/-- The fields every map entry has (R156), with its in-service mark; the pending mark is in Units. -/
structure MapEntry where
  trigger   : Trigger := .edge
  mask      : Mask := .masked
  action    : MapAction := .none
  route     : Route := .leastAttention
  inService : Bool := false
  deriving DecidableEq, Repr

/-- A wired line and its entry (R156). `timing` is the moment since which the input shows the level other than the
debounced one, while such a change is being timed (R157). -/
structure WiredLine where
  polarity : Polarity := .activeHigh
  debounce : Nat := 30
  level    : Level := .low
  timing   : Option CoachTime := none
  map      : MapEntry := {}
  deriving DecidableEq, Repr

/-- A virtual line and its entry (R156). -/
structure VirtualLine where
  value    : Bool := false
  writer   : Option Link := none
  deadline : Option CoachTime := none
  map      : MapEntry := {}
  deriving DecidableEq, Repr

/-- The five error tallies of a port (R186). -/
structure Tallies where
  crc       : Nat := 0
  length    : Nat := 0
  framing   : Nat := 0
  overrun   : Nat := 0
  truncated : Nat := 0
  deriving DecidableEq, Repr

/-- A partial frame (R186): the bytes received after the start byte, LEN first, and the coach time of the last. -/
structure PartialFrame where
  bytes : List Byte
  last  : CoachTime
  deriving DecidableEq, Repr

/-- A request in a receive queue: its TAG and what it asks. -/
structure QueuedRequest where
  tag : Byte
  req : Request
  deriving DecidableEq, Repr

/-- The part of a port that the units do not write (R186, R188, R190). `sending` is the frame the transmitter is
busy with, none while it is free. -/
structure PortIn where
  linked    : Bool := false
  silence   : Option CoachTime := none
  rx        : List QueuedRequest := []
  attention : Bool := false
  level     : Nat := 0
  tallies   : Tallies := {}
  part      : Option PartialFrame := none
  sending   : Option (List Byte) := none
  deriving DecidableEq, Repr

/-- What requests and lines write. -/
structure Setup where
  phase   : Phase := .config
  staging : Slots
  owner   : Option Link := none
  profile : Option Slots := none
  parkSet : Bool := false
  ignOn   : Bool := false
  wired   : Vector WiredLine 16
  virt    : Vector VirtualLine 8 := Vector.replicate 8 {}
  ports   : Vector PortIn 3 := Vector.replicate 3 {}
  deriving DecidableEq, Repr

/-! ## Claims (Chapter 2) -/

/-- How a claim was made (R23). -/
inductive ClaimKind | explicit | transient
  deriving DecidableEq, Repr

/-- A claim table entry that has a holder (R23); the table holds none where the holder is none. -/
structure Claim where
  holder : Requester
  kind   : ClaimKind
  stamp  : CoachTime
  mark   : Bool := false
  deriving DecidableEq, Repr

/-- An entry of the claim wait list (R27). `tested` says its preemption time has been reached and its first test
made (R37, log 14). -/
structure WaitEntry where
  link     : Link
  tag      : Byte
  missing  : List Group
  asked    : List Group
  arrival  : CoachTime
  deadline : CoachTime
  tested   : Bool := false
  deriving DecidableEq, Repr

/-! ## Budget (Chapter 3) and manifold (Chapter 4) -/

/-- A consumer (R48). -/
inductive Consumer | pump | drive (n : Fin 6) | pin (n : Fin 6) | awning
  deriving DecidableEq, Repr

/-- An admission (R50). -/
structure Admission where
  consumer   : Consumer
  allocation : Nat
  stamp      : CoachTime
  deriving DecidableEq, Repr

/-- Why a consumer waits (R53). -/
inductive WaitCause | request | shedLimit | shedOverload
  deriving DecidableEq, Repr

/-- An entry of the budget wait queue (R53). -/
structure BudgetWait where
  consumer   : Consumer
  allocation : Nat
  arrival    : CoachTime
  cause      : WaitCause
  earliest   : CoachTime
  deriving DecidableEq, Repr

/-- A user of the manifold (R62). -/
inductive ManifoldUser | room (n : Fin 6) | jacks
  deriving DecidableEq, Repr

/-- Manifold state (R61). -/
inductive ManifoldState | idle | switching | awaitBudget | running | cooling
  deriving DecidableEq, Repr

/-- An entry of the manifold queue (R65); its circuit is its user's. -/
structure ManifoldWait where
  user        : ManifoldUser
  interrupted : Bool := false
  deriving DecidableEq, Repr

/-- The manifold sequencer but for the diverter position (Image.diverter), the heat count and the overpressure
measurement (Measured) (R61). -/
structure Manifold where
  state        : ManifoldState := .idle
  user         : Option ManifoldUser := none
  queue        : List ManifoldWait := []
  switchingEnd : Option CoachTime := none
  heatStart    : CoachTime := 0
  deriving DecidableEq, Repr

/-! ## Motions (Chapters 6 to 8) -/

/-- Motion results, in the numbering order of 11.6. -/
inductive MotionResult
  | completed | stopped | released | superseded | unreachable
  | abortedFault | abortedPermit | abortedWind | abortedLink
  deriving DecidableEq, Repr

/-- What keeps a HOLD motion alive (R97); none in FULL. -/
inductive HoldSource | none | deadline (t : CoachTime) | line (l : Line)
  deriving DecidableEq, Repr

/-- Room states, in the order of R95. -/
inductive RoomState
  | stowed | unpinning | waiting | extending | retracting | paused | out | partway | pinning | unknown | fault
  deriving DecidableEq, Repr

/-- Steps of a room motion (R97). -/
inductive RoomStep | pinWait | unpin | driveWait | drive | dwell | pause | pinEngage
  deriving DecidableEq, Repr

/-- The room motion record (R97). `route` is the route of the delivering map entry for a motion of WL (R160). The
three lost marks say which of the room's shed resources are not yet back (R109 to R111, log 24); `begun` says that the
drive step in the record's direction has begun, so that a later start resumes it (R109, R110, log 39). -/
structure RoomMotion where
  requester   : Requester
  dir         : Direction
  mode        : Mode
  target      : Option Int
  hold        : HoldSource
  route       : Route
  step        : RoomStep
  pending     : Option MotionResult := none
  pinDeadline : Option CoachTime := none
  dwellEnd    : Option CoachTime := none
  lostDrive   : Bool := false
  lostPin     : Bool := false
  lostTurn    : Bool := false
  begun       : Bool := false
  deriving DecidableEq, Repr

/-- A room sequencer (R95, R97), with its motors' soft-start ramps (R88) and its sync hold (R90). -/
structure Room where
  state    : RoomState := .unknown
  motion   : Option RoomMotion := none
  rampA    : CoachTime := 0
  rampB    : CoachTime := 0
  syncHold : Option RoomEnd := none
  deriving DecidableEq, Repr

/-- Jack set states, in the order of R118. -/
inductive JackSetState
  | stowed | seeking | grounded | levelling | levelled | jogging | retracting | paused | partway | unknown | fault
  deriving DecidableEq, Repr

/-- Jack states, in the order of R119. -/
inductive JackState | fault | movingDown | movingUp | stowed | contact | down
  deriving DecidableEq, Repr

/-- Kinds of jack operation (R121). -/
inductive JackKind | auto | seek | jog | retract
  deriving DecidableEq, Repr

/-- Steps of a jack operation (R121). -/
inductive JackStep | turnWait | seek | settle | lift | reseek | jog | retract | pause
  deriving DecidableEq, Repr

/-- The jack motion record (R121). -/
structure JackMotion where
  requester   : Requester
  kind        : JackKind
  mode        : Mode
  jogSet      : List (Fin 6) := []
  jogDir      : JackDir := .down
  hold        : HoldSource
  route       : Route
  step        : JackStep := .turnWait
  resume      : Option JackStep := none
  deadline    : Option CoachTime := none
  passes      : Nat := 0
  liftAxis    : Option TiltAxis := none
  lifted      : List (Fin 6) := []
  threshold   : Nat := 0
  unreachable : Bool := false
  deriving DecidableEq, Repr

/-- The levelling sequencer (R118, R121, R137, R139). -/
structure Jacks where
  state  : JackSetState := .unknown
  motion : Option JackMotion := none
  fault  : Vector Bool 6 := Vector.replicate 6 false
  drift  : Option CoachTime := none
  deriving DecidableEq, Repr

/-- Awning states, in the order of R142. -/
inductive AwningState
  | stowed | extending | retracting | out | unknown | windRetract | ignRetract | fault
  deriving DecidableEq, Repr

/-- Steps of an awning motion or retract (R143, R151). -/
inductive AwningStep | admitWait | drive | dwell
  deriving DecidableEq, Repr

/-- The awning motion record (R143); the target is a count. -/
structure AwningMotion where
  requester : Requester
  dir       : Direction
  mode      : Mode
  target    : Option Int
  hold      : HoldSource
  route     : Route
  step      : AwningStep := .admitWait
  dwellEnd  : Option CoachTime := none
  deriving DecidableEq, Repr

/-- Cause of an internal retract (R151). -/
inductive RetractCause | wind | ignition
  deriving DecidableEq, Repr

/-- The retract record (R151). -/
structure Retract where
  cause    : RetractCause
  step     : AwningStep
  dwellEnd : Option CoachTime
  deriving DecidableEq, Repr

/-- The awning controller (R142, R143, R150, R151), with its soft-start ramp (R88). -/
structure Awning where
  state        : AwningState := .unknown
  motion       : Option AwningMotion := none
  retract      : Option Retract := none
  ignitionMark : Bool := false
  ramp         : CoachTime := 0
  deriving DecidableEq, Repr

/-! ## Driver chain (Chapter 5) -/

/-- The frame in flight (R78): the values it carries, its start, and for each of the nine fault records whether it
was built after that record's latest halt (R174). -/
structure Flight where
  frame    : Image
  start    : CoachTime
  confirms : Vector Bool 9
  deriving DecidableEq, Repr

/-! ## Faults (Chapter 10) -/

/-- Fault codes, in the order of R172. -/
inductive FaultCode
  | estop | roadMotion | undervolt | senseRange | boardHot | chainEcho | pumpTrip | overpressure
  | stall | sync | pinTimeout | trip | seekTimeout | noGround | retractTimeout | tiltRange | pjRange
  deriving DecidableEq, Repr

/-- A sense channel as a detail names it, in the order of R194. -/
inductive SenseChannel | vbat | ibus | pman | tiltX | tiltY
  deriving DecidableEq, Repr

/-- The detail of a raise (R172, R194). -/
inductive Detail
  | none
  | channel (i : Fin 33)
  | sense (k : SenseChannel)
  | roomEnd (e : RoomEnd) (lead : Int)
  | jack (j : Fin 6)
  | awningAxis
  | overrun
  | board (position : Nat)
  | value (v : Int)
  | missing
  | pinWithdraw
  | pinEngage
  deriving DecidableEq, Repr

/-- State of a fault record (R171). -/
inductive FaultState | empty | active | clearable
  deriving DecidableEq, Repr

/-- A fault record (R171). A code stands in the list with its present mark; an event code's mark is never set.
`confirmed` is confirmation DONE. -/
structure FaultRecord where
  state      : FaultState := .empty
  codes      : List (FaultCode × Bool) := []
  firstStamp : Option CoachTime := none
  lastStamp  : Option CoachTime := none
  count      : Nat := 0
  detail     : Detail := .none
  confirmed  : Bool := true
  deriving DecidableEq, Repr

/-- A FAULT_CLEAR held for the next echo (R182). -/
structure HeldClear where
  link    : Link
  tag     : Byte
  subject : Subject
  deriving DecidableEq, Repr

/-! ## Responses and notices (Chapter 11) -/

/-- Statuses, in the numbering order of 11.6. -/
inductive Status
  | ok | accepted | heldBy | notHeld | interlock | permit | faulted | absent | notConfigured | locked
  | badRequest | badProfile | queueFull | waitFull | stale | windHold | windBusy | notMoving | entryBusy
  | stillActive | notFaulted
  deriving DecidableEq, Repr

/-- A response in the response line (R190): its KIND, TAG, status and whole data, and the next segment to send. -/
structure Response where
  kind   : Byte
  tag    : Byte
  status : Status
  data   : List Byte
  next   : Nat := 0
  deriving DecidableEq, Repr

/-- Reasons of CLAIM_REFUSED (R194). -/
inductive RefusedReason | timeout | permitLost
  deriving DecidableEq, Repr

/-- Reasons of PAUSED (R194). -/
inductive PauseReason | budget | pumpHeat
  deriving DecidableEq, Repr

/-- WIND events (R194). -/
inductive WindEvent | retractStarted | retractDone | holdEnded
  deriving DecidableEq, Repr

/-- Advisories with what they carry (R194). -/
inductive Advisory
  | drift (pitch roll : Int)
  | busOverload (ibus bLim : Nat) (shed : Option Consumer)
  | homeCorrected (n : Fin 6) (e : RoomEnd) (count : Int)
  | parkReleasedDeployed
  | jacksDownIgn (s : JackSetState)
  deriving DecidableEq, Repr

/-- Notices with their fields after the stamp (R194). POSTURE_CHANGED takes its generation when it is sent. -/
inductive NoticeBody
  | motionDone (g : Group) (r : MotionResult) (position : Int)
  | claimGranted (tag : Byte) (groups : List Group) (stamp : CoachTime)
  | claimLost (groups : List Group) (holder : Requester)
  | claimRefused (tag : Byte) (groups : List Group) (reason : RefusedReason)
  | postureChanged
  | faultRaised (s : Subject) (code : FaultCode) (detail : Detail) (count : Nat) (state : FaultState)
  | faultCleared (s : Subject) (l : Link)
  | windNotice (e : WindEvent) (cause : Option RetractCause)
  | lineEvent (l : Line) (active : Bool)
  | lineRefused (l : Line) (status : Status) (data : List Byte)
  | paused (g : Group) (reason : PauseReason)
  | resumed (g : Group)
  | advisory (a : Advisory)
  | noticesLost (count : Nat)
  deriving DecidableEq, Repr

/-- A queued notice with its stamp (R194). -/
structure Notice where
  stamp : CoachTime
  body  : NoticeBody
  deriving DecidableEq, Repr

/-- The part of a port that the units write (R188): response line, notice queue, lost flag and count. -/
structure PortOut where
  line      : List Response := []
  notices   : List Notice := []
  lostFlag  : Bool := false
  lostCount : Nat := 0
  deriving DecidableEq, Repr

/-! ## Units and State -/

/-- What the units' reactions write. -/
structure Units where
  generation    : Generation := 0
  claims        : Vector (Option Claim) 8 := Vector.replicate 8 none
  waitList      : List WaitEntry := []
  admissions    : List Admission := []
  budgetQueue   : List BudgetWait := []
  overload      : Option CoachTime := none
  manifold      : Manifold := {}
  image         : Image := {}
  chainEn       : Bool := false
  flight        : Option Flight := none
  changePending : Bool := false
  frameStart    : CoachTime := 0
  driveOn       : Vector (Option CoachTime) 19 := Vector.replicate 19 none
  rooms         : Vector Room 6 := Vector.replicate 6 {}
  jacks         : Jacks := {}
  awning        : Awning := {}
  pendingMarks  : Vector Bool 24 := Vector.replicate 24 false
  faults        : Vector FaultRecord 9 := Vector.replicate 9 {}
  heldClears    : List HeldClear := []
  out           : Vector PortOut 3 := Vector.replicate 3 {}
  deriving DecidableEq, Repr

/-- The state of the block. -/
structure State where
  pending : List Instr := []
  m       : Measured
  c       : Setup
  u       : Units
  deriving DecidableEq, Repr

/-- What a counter holds after a reset (R87): VALID at 0 if its home switch is made, else INVALID at 0. -/
def Counter.atReset (homeMade : Bool) : Counter := { valid := homeMade }

/-- The measured part after a power-on reset whose pins read `pins` and whose end is coach time `now` (R1, R15, R44,
R61, R85, R87, R126, R149). -/
def Measured.atReset (pins : ResetPins) (now : CoachTime) : Measured where
  now := now
  straps := { jacks6 := pins.jacks6, supply24 := pins.supply24 }
  estop := pins.estop
  windowStart := now
  bLim := if pins.supply24 then 1000 else 1500
  counterA := Vector.ofFn fun n => Counter.atReset pins.inSwitchA[n]
  counterB := Vector.ofFn fun n => Counter.atReset pins.inSwitchB[n]
  counterJ := Vector.ofFn fun j => Counter.atReset pins.jackStowed[j]
  counterAw := Counter.atReset pins.awningStowed
  roomSw := Vector.ofFn fun n =>
    { inA := pins.inSwitchA[n], inB := pins.inSwitchB[n], engaged := pins.pinEngaged[n],
      withdrawn := pins.pinWithdrawn[n] }
  jackStowed := pins.jackStowed
  awningStowed := pins.awningStowed
  wind := { secondStart := now }

/-- The setup part after either reset (R2, R3, R156, R188). DESIGN CHOICE: no frame is being sent (log 71) and no
partial frame stands (log 72), whatever XRST found; R188 names neither. -/
def Setup.atReset (pins : ResetPins) : Setup where
  staging := initialSlots { jacks6 := pins.jacks6, supply24 := pins.supply24 }
  wired := Vector.ofFn fun n => { level := pins.lines[n] }

/-- The units after a power-on reset, or, but for the fault records, after XRST, with the reset ending at `now`
(R16, R33, R44, R61, R76, R78, R83, R171, R188). -/
def Units.atReset (now : CoachTime) : Units where
  manifold := { heatStart := now }
  frameStart := now

/-- The machine after a power-on reset whose input pins read `pins` (R22: coach time 0). -/
def State.powerOn (pins : ResetPins) : State where
  m := Measured.atReset pins 0
  c := Setup.atReset pins
  u := Units.atReset 0

/-- The machine right after a power-on reset with every input pin low, released or open (DESIGN CHOICE, log 6: the
spec samples the pins and gives them no level). -/
def State.reset : State := State.powerOn {}

/-! ## Stops -/

/-- Faults of the machine itself: none. Every condition the manual calls a fault (R172) is state of its fault unit,
and every command has an effect, so nothing raises a stop here. -/
inductive Fault
  deriving DecidableEq, Repr

/-- Refusals of the machine. -/
inductive Refusal
  /-- Raised by exec for a command that has no meaning yet; safe, the machine stops. No arm uses it. -/
  | notModelled (mnemonic : String)
  deriving DecidableEq, Repr

/-- What a meaning answers. -/
abbrev Answer := Host.Outcome State Fault Refusal

end Sys2Proof.Machine
end

