-- ==== Sys2Proof/Machine/Time.lean ====
section
/-! DEFINITION. Coach-time arithmetic (R22). -/
namespace Sys2Proof.Machine

/-- A deadline D is reached at a moment T at which (T - D) modulo 2^32 is less than 2^31 (R22). -/
def reached (d now : CoachTime) : Bool := decide ((now - d).toNat < 2147483648)

/-- At least n ms have passed since s (R22). -/
def elapsed (s now : CoachTime) (n : Nat) : Bool :=
  decide (n ≤ (now - s).toNat ∧ (now - s).toNat < 2147483648)

/-- The coach time ms milliseconds after t. -/
def after (t : CoachTime) (ms : Nat) : CoachTime := t + BitVec.ofNat 32 ms

/-- Whether a deadline that may be absent stands and is reached. -/
def dueAt (d : Option CoachTime) (now : CoachTime) : Bool :=
  match d with
  | some t => reached t now
  | none => false

end Sys2Proof.Machine
end

