-- ==== Sys2Proof/Machine/Operands.lean ====
section
/-! DEFINITION. How the units read what commands, profile and counters give them: numbers of links, groups, lines,
axes and channels; the fields of the profile in force; counters and switches. -/
namespace Sys2Proof.Machine

/-! ## Numbers -/

/-- The number of a link, which is also its encoding (R191). -/
def linkIdx : Link → Fin 3
  | .ml0 => 0
  | .ml1 => 1
  | .ml2 => 2

/-- The number of a group (R191). -/
def groupIdx : Group → Fin 8
  | .room n => n.castLE (by omega)
  | .jacks => 6
  | .awning => 7

/-- The number of a fault subject (R191). -/
def subjectIdx : Subject → Fin 9
  | .group g => (groupIdx g).castLE (by omega)
  | .coach => 8

/-- The number of a line (R191). -/
def lineIdx : Line → Fin 24
  | .wired n => n.castLE (by omega)
  | .virtual n => n.natAdd 16

/-- The number of an axis among the nineteen of R86. -/
def axisIdx : Axis → Fin 19
  | .roomEnd n .a => ⟨2 * n.val, by omega⟩
  | .roomEnd n .b => ⟨2 * n.val + 1, by omega⟩
  | .jack j => ⟨12 + j.val, by omega⟩
  | .awning => 18

/-- The three links in number order. -/
def allLinks : List Link := [.ml0, .ml1, .ml2]
/-- The six room numbers. -/
def allRooms : List (Fin 6) := List.finRange 6
/-- The six jack numbers. -/
def allJacks : List (Fin 6) := List.finRange 6
/-- The eight groups in the order ROOM0 to ROOM5, JACKS, AWNING. -/
def allGroups : List Group := allRooms.map .room ++ [.jacks, .awning]
/-- The nine subjects in the order of the fault table (R171). -/
def allSubjects : List Subject := allGroups.map .group ++ [.coach]
/-- The virtual lines in order. -/
def allVirtual : List (Fin 8) := List.finRange 8
/-- The nineteen axes in number order. -/
def allAxes : List Axis :=
  allRooms.flatMap (fun n => [.roomEnd n .a, .roomEnd n .b]) ++ allJacks.map .jack ++ [.awning]

/-! ## The context of a reaction -/

/-- What a unit's reaction reads and never writes: the measured part and the setup part of State. -/
structure Ctx where
  m : Measured
  c : Setup

/-- The present coach time. -/
def Ctx.now (x : Ctx) : CoachTime := x.m.now
/-- Whether the phase is RUN. -/
def Ctx.running (x : Ctx) : Bool := x.c.phase == .run
/-- The port of a link. -/
def Ctx.port (x : Ctx) (l : Link) : PortIn := x.c.ports[linkIdx l]
/-- Whether a link is LINKED. -/
def Ctx.linked (x : Ctx) (l : Link) : Bool := (x.port l).linked

/-! ## The profile in force (R8: the committed one in RUN; before it the defaults of R3) -/

/-- The profile the units read. -/
def Ctx.profile (x : Ctx) : Slots :=
  match x.c.profile with
  | some p => p
  | none => initialSlots x.m.straps

/-- GENERAL: rated limit, V_derate, V_floor, pump draw, overpressure threshold, pulses per km (R9). -/
def Ctx.general (x : Ctx) (i : Nat) : Nat := x.profile.nat .general i
/-- The rank table: the three link numbers, highest rank first, from the lowest byte up (R9, R191). -/
def Ctx.rankTable (x : Ctx) : List Nat :=
  let v := x.general 6
  [v % 256, v / 256 % 256, v / 65536]
/-- The place of a link in the rank table, 0 the highest. -/
def Ctx.rank (x : Ctx) (l : Link) : Nat := x.rankTable.idxOf (linkIdx l).val
/-- Whether room n is present: in RUN, and declared (R10). -/
def Ctx.roomPresent (x : Ctx) (n : Fin 6) : Bool := x.running && x.profile.declares (.room n)
/-- A field of ROOM n. -/
def Ctx.roomField (x : Ctx) (n : Fin 6) (i : Nat) : Nat := x.profile.nat (.room n) i
/-- Whether room n is ELECTRIC (R10). -/
def Ctx.electric (x : Ctx) (n : Fin 6) : Bool := x.roomField n 1 == 1
/-- Whether room n carries the shadowed mark. -/
def Ctx.shadowed (x : Ctx) (n : Fin 6) : Bool := x.roomPresent n && x.roomField n 3 == 1
/-- Whether room n has a lock. -/
def Ctx.locked (x : Ctx) (n : Fin 6) : Bool := x.roomField n 4 == 1
/-- The stroke of room n. -/
def Ctx.roomStroke (x : Ctx) (n : Fin 6) : Int := x.roomField n 5
/-- Whether the support-required mark of room n is yes. -/
def Ctx.supportRequired (x : Ctx) (n : Fin 6) : Bool := x.roomField n 12 == 1
/-- A field of JACKS (R11). -/
def Ctx.jackField (x : Ctx) (i : Nat) : Nat := x.profile.nat .jacks i
/-- Whether jack j is present: in RUN, and below the jack count. -/
def Ctx.jackPresent (x : Ctx) (j : Fin 6) : Bool := x.running && decide (j.val < x.jackField 0)
/-- The present jacks. -/
def Ctx.presentJacks (x : Ctx) : List (Fin 6) := allJacks.filter x.jackPresent
/-- The present rooms. -/
def Ctx.presentRooms (x : Ctx) : List (Fin 6) := allRooms.filter x.roomPresent
/-- The max stroke of the jacks. -/
def Ctx.maxStroke (x : Ctx) : Int := x.jackField 2
/-- The level tolerance in 0.01 degree. -/
def Ctx.tolerance (x : Ctx) : Nat := x.jackField 5
/-- Whether the awning is present (R12). -/
def Ctx.awningPresent (x : Ctx) : Bool := x.running && x.profile.declares .awning
/-- A field of AWNING; where the awning is absent, its default (R12, R148). -/
def Ctx.awningField (x : Ctx) (i : Nat) : Nat :=
  if x.awningPresent then x.profile.nat .awning i else (initialSlots x.m.straps).nat .awning i
/-- The stroke of the awning. -/
def Ctx.awningStroke (x : Ctx) : Int := x.awningField 1
/-- The wind hold-off in ms (R12: minutes). -/
def Ctx.holdOffMs (x : Ctx) : Nat := x.awningField 7 * 60000
/-- A field of TIMING (R13). -/
def Ctx.timing (x : Ctx) (i : Nat) : Nat := x.profile.nat .timing i
/-- The deadman window. -/
def Ctx.deadman (x : Ctx) : Nat := x.timing 0
/-- Whether a group is present (Introduction). -/
def Ctx.present (x : Ctx) : Group → Bool
  | .room n => x.roomPresent n
  | .jacks => x.running
  | .awning => x.awningPresent

/-- A subject's group, if it is one. -/
def subjectGroup : Subject → Option Group
  | .group g => some g
  | .coach => none

/-! ## Counters and switches -/

/-- The counter of an axis (R86). -/
def Measured.counter (m : Measured) : Axis → Counter
  | .roomEnd n .a => m.counterA[n]
  | .roomEnd n .b => m.counterB[n]
  | .jack j => m.counterJ[j]
  | .awning => m.counterAw

/-- The measured part with one counter replaced. -/
def Measured.withCounter (m : Measured) (a : Axis) (k : Counter) : Measured :=
  match a with
  | .roomEnd n .a => { m with counterA := m.counterA.set n k }
  | .roomEnd n .b => { m with counterB := m.counterB.set n k }
  | .jack j => { m with counterJ := m.counterJ.set j k }
  | .awning => { m with counterAw := k }

/-- The ends of room n whose counters and in-switches are in use (R85, R86). -/
def Ctx.ends (x : Ctx) (n : Fin 6) : List RoomEnd := if x.electric n then [.a, .b] else [.a]

/-- The in-switch of one end. -/
def Ctx.inSwitch (x : Ctx) (n : Fin 6) (e : RoomEnd) : Bool :=
  match e with
  | .a => x.m.roomSw[n].inA
  | .b => x.m.roomSw[n].inB

/-- The room's in-switch: made while every in-switch of the room is made (R85). -/
def Ctx.roomIn (x : Ctx) (n : Fin 6) : Bool := (x.ends n).all (x.inSwitch n)

/-- Room n's count validity (R14). -/
def Ctx.roomValid (x : Ctx) (n : Fin 6) : Bool := (x.ends n).all fun e => (x.m.counter (.roomEnd n e)).valid

/-- The count of one end of room n. -/
def Ctx.endCount (x : Ctx) (n : Fin 6) (e : RoomEnd) : Int := (x.m.counter (.roomEnd n e)).count

/-- A value held between two limits. -/
def clampInt (lo hi v : Int) : Int := max lo (min hi v)

/-- The count of one end as the room's position reads it: a negative one as 0 (R87). -/
def Ctx.endRead (x : Ctx) (n : Fin 6) (e : RoomEnd) : Int := max 0 (x.endCount n e)

/-- The position of room n (R14, R87). DEDUCED (log 50): each count is read, a negative one as 0, before the mean of an
ELECTRIC room is taken. -/
def Ctx.roomPosition (x : Ctx) (n : Fin 6) : Int :=
  if !x.roomValid n then 0
  else clampInt 0 20000
    (if x.electric n then (x.endRead n .a + x.endRead n .b) / 2 else x.endRead n .a)

/-- The stroke of jack j as the posture record holds it (R87, R119). -/
def Ctx.jackStroke (x : Ctx) (j : Fin 6) : Int :=
  if (x.m.counterJ[j]).valid then clampInt 0 30000 (x.m.counterJ[j]).count else 0

/-- The greatest stroke among the present jacks (R121). -/
def Ctx.greatestStroke (x : Ctx) : Int := (x.presentJacks.map x.jackStroke).foldl max 0

/-- The awning position in percent (R14). DEDUCED (log 63): a negative VALID count reads as 0. -/
def Ctx.awningPercent (x : Ctx) : Int :=
  if !x.m.counterAw.valid then 0
  else clampInt 0 100 (x.m.counterAw.count * 100 / x.awningStroke)

/-- The position MOTION_DONE carries for a group (R97, R121, R143). -/
def Ctx.position (x : Ctx) : Group → Int
  | .room n => x.roomPosition n
  | .jacks => x.greatestStroke
  | .awning => x.awningPercent

/-- Lock switch states, in the order of R14. -/
inductive LockState | engaged | withdrawn | between | none
  deriving DecidableEq, Repr

/-- The lock switch state of room n (R14). -/
def Ctx.lockState (x : Ctx) (n : Fin 6) : LockState :=
  if !x.locked n then .none else
  match x.m.roomSw[n].engaged, x.m.roomSw[n].withdrawn with
  | true, false => .engaged
  | false, true => .withdrawn
  | _, _ => .between

/-! ## Channels of the image (R76, R80) -/

/-- What one channel of an image shows, in a form in which channels of any kind compare. -/
inductive ChannelValue
  | pump (on : Bool) | diverter (c : Circuit) | jackValve (v : JackValve) | roomValve (v : RoomValve)
  | motor (v : Motor) | pin (on : Bool)
  deriving DecidableEq, Repr

/-- The value of a channel by its place in the channel order (R80). -/
def channelValue (i : Image) (k : Fin 33) : ChannelValue :=
  if k.val = 0 then .pump i.pump
  else if k.val = 1 then .diverter i.diverter
  else if h : k.val < 8 then .jackValve (i.jackValve[k.val - 2]'(by omega))
  else if h : k.val < 14 then .roomValve (i.roomValve[k.val - 8]'(by omega))
  else if h : k.val < 26 then
    if k.val % 2 = 0 then .motor (i.motorA[(k.val - 14) / 2]'(by omega))
    else .motor (i.motorB[(k.val - 14) / 2]'(by omega))
  else if k.val = 26 then .motor i.awningMotor
  else .pin (i.pin[k.val - 27]'(by omega))

/-- The group that owns a channel; none for PUMP and DIVERTER (R81). -/
def channelOwner (k : Fin 33) : Option Group :=
  if k.val < 2 then none
  else if k.val < 8 then some .jacks
  else if h : k.val < 14 then some (.room ⟨k.val - 8, by omega⟩)
  else if h : k.val < 26 then some (.room ⟨(k.val - 14) / 2, by omega⟩)
  else if k.val = 26 then some .awning
  else some (.room ⟨k.val - 27, by omega⟩)

/-- The jack whose valve a channel is (R139). -/
def channelJack (k : Fin 33) : Option (Fin 6) :=
  if h : 2 ≤ k.val ∧ k.val < 8 then some ⟨k.val - 2, by omega⟩ else none

/-- Whether a channel belongs to a subject (R174). -/
def subjectHasChannel (s : Subject) (k : Fin 33) : Bool :=
  match s with
  | .coach => true
  | .group g => channelOwner k == some g

/-- The 33 channels in the channel order. -/
def allChannels : List (Fin 33) := List.finRange 33

/-- Whether a channel value is that of a drive output that is off; DIVERTER is no drive output (R76, R79). -/
def channelOff : ChannelValue → Bool
  | .pump on => !on
  | .diverter _ => true
  | .jackValve v => v == .off
  | .roomValve v => v == .off
  | .motor v => v.duty == 0
  | .pin on => !on

/-- The first channel in which two images differ (R80). -/
def firstDifference (a b : Image) : Option (Fin 33) :=
  allChannels.find? fun k => channelValue a k != channelValue b k

/-- An image with every drive output off and DIVERTER as it was (R76, R79). -/
def imageDriveOff (i : Image) : Image := { diverter := i.diverter }

/-- Whether every drive output of an image is off (R76). -/
def imageAllOff (i : Image) : Bool := allChannels.all fun k => channelOff (channelValue i k)

/-- A motor of the room motor pair. -/
def imageMotor (i : Image) (n : Fin 6) (e : RoomEnd) : Motor :=
  match e with
  | .a => i.motorA[n]
  | .b => i.motorB[n]

/-- The image with one room motor written. -/
def imageWithMotor (i : Image) (n : Fin 6) (e : RoomEnd) (v : Motor) : Image :=
  match e with
  | .a => { i with motorA := i.motorA.set n v }
  | .b => { i with motorB := i.motorB.set n v }

end Sys2Proof.Machine
end

