-- ==== Sys2Proof/Machine/Flags.lean ====
section
/-! DEFINITION. The flags and states the spec derives from others: settled states, contact, idle flags, travel-ready,
the permits, fault flags, and the posture record as a whole (R14). -/
namespace Sys2Proof.Machine

/-! ## Rooms -/

/-- The active states of a room (R95). -/
def roomStateActive : RoomState → Bool
  | .unpinning | .waiting | .extending | .retracting | .paused | .pinning => true
  | _ => false

/-- The settled state of room n (R96). -/
def Ctx.roomSettled (x : Ctx) (n : Fin 6) : RoomState :=
  if x.roomIn n && (!x.locked n || x.lockState n == .engaged) then .stowed
  else if x.roomValid n then .partway
  else .unknown

/-- The state in which the stop procedure leaves a room that does not enter PINNING (R112). -/
def Ctx.roomStopped (x : Ctx) (n : Fin 6) : RoomState :=
  if x.roomIn n then .stowed
  else if (x.ends n).all (fun e => (x.m.counter (.roomEnd n e)).valid && decide (x.roomStroke n ≤ x.endCount n e))
  then .out
  else if x.roomValid n then .partway
  else .unknown

/-- The present rooms in an active state. -/
def activeRooms (x : Ctx) (u : Units) : List (Fin 6) :=
  x.presentRooms.filter fun n => roomStateActive u.rooms[n].state

/-- The shadowed rooms in an active state (R24, R144). -/
def activeShadowed (x : Ctx) (u : Units) : List (Fin 6) := (activeRooms x u).filter x.shadowed

/-! ## Jacks -/

/-- The active states of the jack set (R118). -/
def jackStateActive : JackSetState → Bool
  | .seeking | .levelling | .jogging | .retracting | .paused => true
  | _ => false

/-- The contact flag of jack j (R119): from the commit on, what the last in-range sample of its channel decides. -/
def Ctx.contact (x : Ctx) (j : Fin 6) : Bool :=
  x.jackPresent j &&
    match x.m.pjLast[j] with
    | some p => decide ((x.jackField 1 : Int) ≤ p)
    | none => false

/-- Whether every present jack's stowed switch is made. -/
def Ctx.jacksStowed (x : Ctx) : Bool := x.presentJacks.all fun j => x.m.jackStowed[j]

/-- The jack state of jack j (R119). -/
def jackState (x : Ctx) (u : Units) (j : Fin 6) : JackState :=
  if u.jacks.fault[j] then .fault
  else match u.image.jackValve[j] with
    | .down => .movingDown
    | .up => .movingUp
    | .off => if x.m.jackStowed[j] then .stowed else if x.contact j then .contact else .down

/-- Whether every present jack is in CONTACT (R118, R120, R124): its contact flag is set. -/
def Ctx.allContact (x : Ctx) : Bool := x.presentJacks.all x.contact

/-- The settled state of the jack set (R120). -/
def Ctx.jacksSettled (x : Ctx) : JackSetState :=
  if x.jacksStowed then .stowed
  else if x.presentJacks.any (fun j => !(x.m.counterJ[j]).valid) then .unknown
  else if x.allContact then .grounded
  else .partway

/-! ## Awning -/

/-- The settled state of the awning (R142). -/
def Ctx.awningSettled (x : Ctx) : AwningState :=
  if x.m.awningStowed then .stowed else if x.m.counterAw.valid then .out else .unknown

/-- The remaining hold time in whole seconds, rounded up (R149). -/
def Ctx.remainingHold (x : Ctx) : Nat :=
  if !x.m.wind.hold then 0 else
  match x.m.wind.lastWindy with
  | none => 0
  | some t =>
    let stop := after t x.holdOffMs
    if reached stop x.now then 0 else min 3600 (((stop - x.now).toNat + 999) / 1000)

/-! ## Claims -/

/-- The idle flag of a group (R24): no motion record and no internal retract. -/
def idle (u : Units) : Group → Bool
  | .room n => u.rooms[n].motion.isNone
  | .jacks => u.jacks.motion.isNone
  | .awning => u.awning.motion.isNone && u.awning.retract.isNone

/-- The requester of a group's motion, if it has one. -/
def motionRequester (u : Units) : Group → Option Requester
  | .room n => u.rooms[n].motion.map (·.requester)
  | .jacks => u.jacks.motion.map (·.requester)
  | .awning => u.awning.motion.map (·.requester)

/-- The claim table entry of a group. -/
def claimOf (u : Units) (g : Group) : Option Claim := u.claims[groupIdx g]

/-- The holder of a group. -/
def holderOf (u : Units) (g : Group) : Option Requester := (claimOf u g).map (·.holder)

/-! ## Faults, permits, travel-ready -/

/-- The fault record of a subject. -/
def faultOf (u : Units) (s : Subject) : FaultRecord := u.faults[subjectIdx s]

/-- Whether a code's present mark is set in a record. -/
def marked (r : FaultRecord) (k : FaultCode) : Bool := r.codes.any fun e => e.1 == k && e.2

/-- Whether the COACH record is ACTIVE. -/
def coachActive (u : Units) : Bool := (faultOf u .coach).state == .active

/-- A subject's fault flag: its record is not EMPTY (R14). -/
def faultFlag (u : Units) (s : Subject) : Bool := (faultOf u s).state != .empty

/-- Travel-ready (R14). -/
def travelReady (x : Ctx) (u : Units) : Bool :=
  x.running && x.presentRooms.all (fun n => u.rooms[n].state == .stowed) && u.jacks.state == .stowed
    && (!x.awningPresent || u.awning.state == .stowed)

/-- The motion permit (R19). -/
def permit (x : Ctx) (u : Units) : Bool :=
  x.running && x.c.parkSet && decide (x.m.roadSpeed < 2) && !x.m.estop && !coachActive u

/-- The retract permit (R19). -/
def retractPermit (x : Ctx) (u : Units) : Bool := x.running && !coachActive u

/-! ## The posture record (R14) without its live values -/

/-- The non-live fields of one present room. -/
structure RoomView where
  state : RoomState
  valid : Bool
  lock  : LockState
  fault : Bool
  deriving DecidableEq, Repr

/-- The non-live fields of the posture record; absent groups have no entry. -/
structure PostureView where
  park        : Bool
  ign         : Bool
  roadSpeed   : Nat
  estop       : Bool
  rooms       : List (Nat × RoomView)
  jackSet     : Option (JackSetState × Bool)
  jacks       : List (JackState × Bool)
  awning      : Option (AwningState × Bool)
  windHold    : Bool
  travelReady : Bool
  permit      : Bool
  coachFault  : Bool
  deriving DecidableEq, Repr

/-- The posture record but for its live values (R14, R16). -/
def postureView (x : Ctx) (u : Units) : PostureView where
  park := x.c.parkSet
  ign := x.c.ignOn
  roadSpeed := x.m.roadSpeed
  estop := x.m.estop
  rooms := x.presentRooms.map fun n =>
    (n.val, { state := u.rooms[n].state, valid := x.roomValid n, lock := x.lockState n,
              fault := faultFlag u (.group (.room n)) })
  jackSet := if x.running then some (u.jacks.state, faultFlag u (.group .jacks)) else none
  jacks := x.presentJacks.map fun j => (jackState x u j, x.contact j)
  awning := if x.awningPresent then some (u.awning.state, faultFlag u (.group .awning)) else none
  windHold := x.m.wind.hold
  travelReady := travelReady x u
  permit := permit x u
  coachFault := faultFlag u .coach

/-! ## Duties (R88, R89) -/

/-- Whether a count lies in a slow zone of the given width at either end of a stroke (R89). -/
def inSlowZone (k : Counter) (stroke zone : Int) : Bool :=
  !k.valid || decide (k.count ≤ zone) || decide (stroke - zone ≤ k.count)

/-- Whether a room end is in its slow zone (R89). -/
def Ctx.roomSlow (x : Ctx) (n : Fin 6) (e : RoomEnd) : Bool :=
  inSlowZone (x.m.counter (.roomEnd n e)) (x.roomStroke n) (x.roomField n 9)

/-- Whether the awning is in its slow zone (R89). -/
def Ctx.awningSlow (x : Ctx) : Bool := inSlowZone x.m.counterAw x.awningStroke (x.awningStroke / 10)

/-- The ramp duty at a moment (R88). -/
def rampDuty (start now : CoachTime) : Nat :=
  let t := (now - start).toNat
  if 500 ≤ t then 100 else 20 + 80 * t / 500

/-- The shaped duty of a running motor (R88). -/
def shapedDuty (slow : Bool) (start now : CoachTime) : Nat :=
  if slow then min 40 (rampDuty start now) else rampDuty start now

/-- A motor with its duty recomputed, if it runs (R88): a motor at duty 0 is stopped, paused or in a sync hold. -/
def reshape (slow : Bool) (start now : CoachTime) (v : Motor) : Motor :=
  if v.duty = 0 then v else { v with duty := shapedDuty slow start now }

/-- The image with every running motor's duty recomputed for the present moment (R88). -/
def reshapeAll (x : Ctx) (u : Units) : Image :=
  { u.image with
    motorA := Vector.ofFn fun n => reshape (x.roomSlow n .a) u.rooms[n].rampA x.now u.image.motorA[n]
    motorB := Vector.ofFn fun n => reshape (x.roomSlow n .b) u.rooms[n].rampB x.now u.image.motorB[n]
    awningMotor := reshape x.awningSlow u.awning.ramp x.now u.image.awningMotor }

/-- Whether the drive of an axis is on (R92). -/
def driveIsOn (x : Ctx) (u : Units) (a : Axis) : Bool :=
  u.chainEn && match a with
    | .roomEnd n e =>
      if x.electric n then decide (0 < (imageMotor u.image n e).duty)
      else e == .a && u.image.roomValve[n] != .off && u.image.pump
    | .jack j => u.image.jackValve[j] != .off && u.image.pump
    | .awning => decide (0 < u.image.awningMotor.duty)

/-- The direction the governing channel of an axis shows: +1, -1 or 0 (R86). -/
def governed (x : Ctx) (u : Units) (a : Axis) : Int :=
  let dir : MotorDir → Int := fun d => match d with | .outward => 1 | .inward => -1 | .none => 0
  match a with
  | .roomEnd n e =>
    if x.electric n then dir (imageMotor u.image n e).dir
    else match e with
      | .a => match u.image.roomValve[n] with | .extend => 1 | .retract => -1 | .off => 0
      | .b => 0
  | .jack j => match u.image.jackValve[j] with | .down => 1 | .up => -1 | .off => 0
  | .awning => dir u.image.awningMotor.dir

end Sys2Proof.Machine
end

