-- ==== Sys2Proof/Machine/Wire.lean ====
section
/-! DEFINITION. Bytes on a master link: the encodings of R191 and R194, frames and their CRC (R187), segments of a
response (R190), and requests read from and written to bytes. Enumerations whose values the spec lists in the order
of their constructors here are numbered by `ctorIdx` (R191). Gaps in R191 are filled as log 8 says. -/
namespace Sys2Proof.Machine

/-! ## Quantities (R191) -/

/-- One byte. -/
def byte (n : Nat) : Byte := BitVec.ofNat 8 n
/-- Two bytes unsigned, least significant first (R187). -/
def u16 (n : Nat) : List Byte := [byte n, byte (n / 256)]
/-- Four bytes unsigned. -/
def u32 (n : Nat) : List Byte := [byte n, byte (n / 256), byte (n / 65536), byte (n / 16777216)]
/-- Two bytes signed. -/
def i16 (v : Int) : List Byte := u16 (v % 65536).toNat
/-- Four bytes signed. -/
def i32 (v : Int) : List Byte := u32 (v % 4294967296).toNat
/-- A coach time, stamp or generation. -/
def stampBytes (t : BitVec 32) : List Byte := u32 t.toNat

/-- Reads two bytes unsigned. -/
def readU16 (a b : Byte) : Nat := a.toNat + 256 * b.toNat
/-- Reads four bytes unsigned. -/
def readU32 (a b c d : Byte) : Nat := a.toNat + 256 * b.toNat + 65536 * c.toNat + 16777216 * d.toNat
/-- Reads two bytes signed. -/
def readI16 (a b : Byte) : Int := if readU16 a b < 32768 then readU16 a b else readU16 a b - 65536
/-- Reads four bytes signed. -/
def readI32 (a b c d : Byte) : Int :=
  if readU32 a b c d < 2147483648 then readU32 a b c d else readU32 a b c d - 4294967296

/-- A two-valued enumeration, the first value 0. -/
def flagByte (first : Bool) : Byte := if first then 0 else 1

/-- Links, requesters, groups, subjects, lines (R191). -/
def linkByte (l : Link) : Byte := byte (linkIdx l).val
/-- A requester (R191). -/
def requesterByte : Requester → Byte
  | .link l => linkByte l
  | .wl => 3
/-- A requester or none. -/
def holderByte : Option Requester → Byte
  | some r => requesterByte r
  | none => 255
/-- A group. -/
def groupByte (g : Group) : Byte := byte (groupIdx g).val
/-- A group set: bit n stands for group n. -/
def groupSetByte (gs : List Group) : Byte :=
  byte ((allGroups.map fun g => if g ∈ gs then 2 ^ (groupIdx g).val else 0).sum)
/-- A fault subject. -/
def subjectByte (s : Subject) : Byte := byte (subjectIdx s).val
/-- A line. -/
def lineByte (l : Line) : Byte := byte (lineIdx l).val
/-- A section, in the check order of R7. -/
def sectionNumber : Section → Nat
  | .general => 0
  | .room n => 1 + n.val
  | .jacks => 7
  | .awning => 8
  | .timing => 9
  | .lines => 10
/-- A route. -/
def routeByte : Route → Byte
  | .leastAttention => 128
  | .links a b c => byte ((if a then 1 else 0) + (if b then 2 else 0) + (if c then 4 else 0))
/-- A consumer: PUMP 0, DRIVE0-5 1-6, PIN0-5 7-12, AWNING 13 (R48's order, log 8). -/
def consumerByte : Option Consumer → Byte
  | none => 255
  | some .pump => 0
  | some (.drive n) => byte (1 + n.val)
  | some (.pin n) => byte (7 + n.val)
  | some .awning => 13
/-- An action of a map entry: kind, group or chassis input, command (R191). -/
def actionBytes : MapAction → List Byte
  | .none => [0, 255, 255]
  | .roomMotion n k => [1, byte n.val, byte k.ctorIdx]
  | .jackMotion k => [1, 6, byte k.ctorIdx]
  | .awningMotion k => [1, 7, byte k.ctorIdx]
  | .notice => [2, 255, 255]
  | .posture i => [3, byte i.ctorIdx, 255]

/-! ## Frames (R187) -/

/-- The CRC register after one more bit position, most significant bit first, polynomial 0x1021. -/
def crcShift (c : BitVec 16) : BitVec 16 := if c.msb then (c <<< 1) ^^^ 0x1021#16 else c <<< 1

/-- The CRC register after one more byte. -/
def crcByte (c : BitVec 16) (b : Byte) : BitVec 16 :=
  let c := c ^^^ (b.setWidth 16 <<< 8)
  crcShift (crcShift (crcShift (crcShift (crcShift (crcShift (crcShift (crcShift c)))))))

/-- CRC-16 of a list of bytes: initial value 0xFFFF, no reflection, no final inversion (R187). -/
def crc16 (bs : List Byte) : BitVec 16 := bs.foldl crcByte 0xFFFF#16

/-- The CRC as it is sent, high byte first. -/
def crcBytes (bs : List Byte) : List Byte := [(crc16 bs >>> 8).setWidth 8, (crc16 bs).setWidth 8]

/-- A frame with a KIND, a TAG and a payload (R187). -/
def frameBytes (kind tag : Byte) (payload : List Byte) : List Byte :=
  let body := byte (payload.length + 2) :: kind :: tag :: payload
  Config.startByte :: body ++ crcBytes body

/-! ## Responses (R190) -/

/-- How many segments a response has. -/
def segmentCount (r : Response) : Nat := max 1 ((r.data.length + 52) / 53)

/-- The frame of the next segment of a response. -/
def segmentFrame (r : Response) : List Byte :=
  frameBytes r.kind r.tag
    (byte r.status.ctorIdx :: byte r.next :: byte (segmentCount r)
      :: (r.data.drop (Config.segmentData * r.next)).take Config.segmentData)

/-! ## Fault records (R171) and notices (R194) -/

/-- The detail kind and the detail value. -/
def detailBytes : Detail → List Byte
  | .none => 0 :: i16 0
  | .channel i => 1 :: i16 i.val
  | .sense k => 2 :: i16 k.ctorIdx
  | .roomEnd .a v => 3 :: i16 v
  | .roomEnd .b v => 4 :: i16 v
  | .jack j => 5 :: i16 j.val
  | .awningAxis => 6 :: i16 0
  | .overrun => 7 :: i16 0
  | .board p => 8 :: i16 p
  | .value v => 9 :: i16 v
  | .missing => 10 :: i16 0
  | .pinWithdraw => 11 :: i16 0
  | .pinEngage => 11 :: i16 1

/-- Whether a code is class A (R172). -/
def classA : FaultCode → Bool
  | .estop | .roadMotion | .undervolt | .senseRange | .boardHot | .chainEcho | .pumpTrip | .overpressure => true
  | _ => false

/-- Whether a code is persistent (R172). -/
def persistent : FaultCode → Bool
  | .estop | .roadMotion | .undervolt | .senseRange | .boardHot | .tiltRange | .pjRange => true
  | _ => false

/-- An optional stamp: a presence byte, then the value (R191). -/
def optionalStamp (t : Option CoachTime) : List Byte :=
  match t with
  | some t => 1 :: stampBytes t
  | none => 0 :: u32 0

/-- A fault record as FAULT_GET returns it (R180). -/
def faultRecordBytes (r : FaultRecord) : List Byte :=
  byte r.state.ctorIdx :: byte r.codes.length
    :: r.codes.flatMap (fun e => [byte e.1.ctorIdx, if persistent e.1 then flagByte e.2 else 255])
    ++ optionalStamp r.firstStamp ++ optionalStamp r.lastStamp ++ [byte r.count] ++ detailBytes r.detail
    ++ [if r.confirmed then 1 else 0]

/-- Notice numbers, 64 to 77 in the order of the table of 11.4 (R187). -/
def noticeNumber : NoticeBody → Byte
  | .motionDone .. => 64
  | .claimGranted .. => 65
  | .claimLost .. => 66
  | .claimRefused .. => 67
  | .postureChanged => 68
  | .faultRaised .. => 69
  | .faultCleared .. => 70
  | .windNotice .. => 71
  | .lineEvent .. => 72
  | .lineRefused .. => 73
  | .paused .. => 74
  | .resumed .. => 75
  | .advisory .. => 76
  | .noticesLost .. => 77

/-- An advisory: its kind and what it carries (R194). -/
def advisoryBytes : Advisory → List Byte
  | .drift p r => 0 :: i16 p ++ i16 r
  | .busOverload i b k => 1 :: u16 i ++ u16 b ++ [consumerByte k]
  | .homeCorrected n e c => 2 :: byte n.val :: byte e.ctorIdx :: i16 c
  | .parkReleasedDeployed => [3]
  | .jacksDownIgn s => [4, byte s.ctorIdx]

/-- The fields of a notice after its stamp (R194); `gen` is the generation at the start of the transmission. -/
def noticeFields (gen : Generation) : NoticeBody → List Byte
  | .motionDone g r p => groupByte g :: byte r.ctorIdx :: i16 p
  | .claimGranted t gs s => t :: groupSetByte gs :: stampBytes s
  | .claimLost gs h => [groupSetByte gs, requesterByte h]
  | .claimRefused t gs r => [t, groupSetByte gs, byte r.ctorIdx]
  | .postureChanged => stampBytes gen
  | .faultRaised s k d n st =>
    subjectByte s :: byte k.ctorIdx :: flagByte (classA k) :: detailBytes d ++ [byte n, byte st.ctorIdx]
  | .faultCleared s l => [subjectByte s, linkByte l]
  | .windNotice e c => [byte e.ctorIdx, match c with | some k => byte k.ctorIdx | none => 255]
  | .lineEvent l a => [lineByte l, flagByte a]
  | .lineRefused l s d => lineByte l :: byte s.ctorIdx :: d
  | .paused g r => [groupByte g, byte r.ctorIdx]
  | .resumed g => [groupByte g]
  | .advisory a => advisoryBytes a
  | .noticesLost n => [byte n]

/-- The frame of a notice whose transmission begins at `now` with generation `gen` (R187, R194). -/
def noticeFrame (now : CoachTime) (gen : Generation) (n : Notice) : List Byte :=
  let stamp := match n.body with
    | .postureChanged => now
    | _ => n.stamp
  frameBytes (noticeNumber n.body) 0 (stampBytes stamp ++ noticeFields gen n.body)

/-! ## Requests: reading (R191) -/

/-- A group. -/
def readGroup (b : Byte) : Option Group := allGroups.find? fun g => groupByte g == b
/-- A group set. -/
def readGroupSet (b : Byte) : List Group := allGroups.filter fun g => b.getLsbD (groupIdx g).val
/-- A jog set: bit j stands for jack j; the two bits above name nothing. -/
def readJackSet (b : Byte) : Option (List (Fin 6)) :=
  if b.toNat < 64 then some (allJacks.filter fun j => b.getLsbD j.val) else none
/-- A section. -/
def readSection (b : Byte) : Option Section := allSections[b.toNat]?
/-- A line. -/
def readLine (b : Byte) : Option Line :=
  if h : b.toNat < 16 then some (.wired ⟨b.toNat, h⟩)
  else if h : b.toNat < 24 then some (.virtual ⟨b.toNat - 16, by omega⟩)
  else none
/-- A byte that numbers two values. -/
def readTwo {α : Type} (first second : α) (b : Byte) : Option α :=
  if b = 0 then some first else if b = 1 then some second else none
/-- An optional parameter from its presence byte and its value. -/
def readOptional {α : Type} (presence : Byte) (v : α) : Option (Option α) := readTwo none (some v) presence
/-- A fault subject. -/
def readSubject (b : Byte) : Option Subject := allSubjects.find? fun s => subjectByte s == b
/-- A route. -/
def readRoute (b : Byte) : Option Route :=
  if b = 128 then some .leastAttention
  else if b.toNat < 8 then some (.links (b.getLsbD 0) (b.getLsbD 1) (b.getLsbD 2))
  else none
/-- One of three commands. -/
def readThree {α : Type} (a b c : α) (v : Byte) : Option α :=
  if v = 0 then some a else if v = 1 then some b else if v = 2 then some c else none
/-- An action from its three bytes. -/
def readAction (k g c : Byte) : Option MapAction :=
  if k = 0 then (if g = 255 ∧ c = 255 then some .none else none)
  else if k = 1 then
    match readGroup g with
    | some (.room n) => (readThree .extend .retract .stop c).map (.roomMotion n)
    | some .jacks => (readThree .auto .retract .stop c).map .jackMotion
    | some .awning => (readThree .outward .inward .stop c).map .awningMotion
    | none => none
  else if k = 2 then (if g = 255 ∧ c = 255 then some .notice else none)
  else if k = 3 then (if c = 255 then (readTwo .park .ign g).map .posture else none)
  else none

/-- The entries of a PROFILE_STAGE: a field index byte and a profile value each. -/
def readEntries : List Byte → Option (List (Nat × Int))
  | [] => some []
  | i :: a :: b :: c :: d :: rest => (readEntries rest).map ((i.toNat, readI32 a b c d) :: ·)
  | _ => none

/-- The entries of a LINES_SET: a line byte and a value byte each, 0 INACTIVE and 1 ACTIVE. -/
def readSelection : List Byte → Option (List (Line × Bool))
  | [] => some []
  | l :: v :: rest => do
    let l ← readLine l
    let v ← readTwo false true v
    let rest ← readSelection rest
    some ((l, v) :: rest)
  | _ => none

/-- One field entry of a MAP_WRITE, with the bytes after it. -/
def readField : List Byte → Option (MapField × List Byte)
  | i :: a :: rest =>
    if i = 0 then (readTwo .activeHigh .activeLow a).map (.polarity ·, rest)
    else if i = 1 then match rest with
      | b :: rest => some (.debounce (readU16 a b), rest)
      | [] => none
    else if i = 2 then (readTwo .edge .level a).map (.trigger ·, rest)
    else if i = 3 then (readTwo .masked .unmasked a).map (.mask ·, rest)
    else if i = 4 then match rest with
      | b :: c :: rest => (readAction a b c).map (.action ·, rest)
      | _ => none
    else if i = 5 then (readRoute a).map (.route ·, rest)
    else none
  | _ => none

/-- The field entries of a MAP_WRITE; `fuel` bounds their number. -/
def readFields : Nat → List Byte → Option (List MapField)
  | _, [] => some []
  | 0, _ => none
  | fuel + 1, bs => do
    let (f, rest) ← readField bs
    let fs ← readFields fuel rest
    some (f :: fs)

/-- An optional generation. -/
def readGen (p a b c d : Byte) : Option (Option Generation) := readOptional p (BitVec.ofNat 32 (readU32 a b c d))

/-- A mode. -/
def readMode (b : Byte) : Option Mode := readTwo .full .hold b
/-- A direction. -/
def readDirection (b : Byte) : Option Direction := readTwo .outward .inward b

/-- The parameters of a request kind, 1 to 26 (R191, 11.6); none where R191 refuses the frame BAD_REQUEST. -/
def readParameters (kind : Nat) (p : List Byte) : Option Request :=
  match kind, p with
  | 1, [] => some .ping
  | 2, [] => some .linkStatus
  | 3, s :: es => do some (.profileStage (← readSection s) (← readEntries es))
  | 4, [] => some .profileCommit
  | 5, [] => some .profileAbandon
  | 6, [s] => (readSection s).map .profileGet
  | 7, [] => some .postureGet
  | 8, [gs, w, q, a, b, c, d] => do some (.claim (readGroupSet gs) (← readTwo false true w) (← readGen q a b c d))
  | 9, [gs] => some (.release (readGroupSet gs))
  | 10, [g, dir, m, t, t0, t1, q, a, b, c, d] => do
    some (.roomMove (← readGroup g) (← readDirection dir) (← readMode m) (← readOptional t (readI16 t0 t1))
      (← readGen q a b c d))
  | 11, [g] => (readGroup g).map .roomStop
  | 12, [m, q, a, b, c, d] => do some (.jackAuto (← readMode m) (← readGen q a b c d))
  | 13, [m, q, a, b, c, d] => do some (.jackSeek (← readMode m) (← readGen q a b c d))
  | 14, [js, dir, m, q, a, b, c, d] => do
    some (.jackJog (← readJackSet js) (← readTwo .up .down dir) (← readMode m) (← readGen q a b c d))
  | 15, [m, q, a, b, c, d] => do some (.jackRetract (← readMode m) (← readGen q a b c d))
  | 16, [] => some .jackStop
  | 17, [dir, m, t, t0, t1, q, a, b, c, d] => do
    some (.awningMove (← readDirection dir) (← readMode m) (← readOptional t (readU16 t0 t1)) (← readGen q a b c d))
  | 18, [] => some .awningStop
  | 19, [] => some .stopAll
  | 20, [g] => (readGroup g).map .holdRefresh
  | 21, [v] => some (.attentionSet v.toNat)
  | 22, es => (readSelection es).map .linesSet
  | 23, l :: fs => do some (.mapWrite (← readLine l) (← readFields fs.length fs))
  | 24, [l] => (readLine l).map .mapRead
  | 25, [s] => if s = 9 then some (.faultGet none) else (readSubject s).map fun s => .faultGet (some s)
  | 26, [s] => (readSubject s).map .faultClear
  | _, _ => none

/-- The bytes of the value of a MAP_WRITE field, by its index (R191). -/
def fieldSize (i : Byte) : Option Nat :=
  if i = 0 ∨ i = 2 ∨ i = 3 ∨ i = 5 then some 1 else if i = 1 then some 2 else if i = 4 then some 3 else none

/-- Whether bytes are whole field entries of a MAP_WRITE, whatever their values; `fuel` bounds their number. -/
def wholeFields : Nat → List Byte → Bool
  | _, [] => true
  | 0, _ => false
  | fuel + 1, i :: rest =>
    match fieldSize i with
    | some k => decide (k ≤ rest.length) && wholeFields fuel (rest.drop k)
    | none => false

/-- Whether a payload of PROFILE_STAGE, MAP_WRITE or FAULT_CLEAR is as long as its parameters (R191): these rules give
an unknown section, line, value or subject its place among their refusals (R4, R166, R181; DEDUCED, log 31). -/
def ownOrder (kind : Nat) (p : List Byte) : Bool :=
  match kind, p with
  | 3, _ :: es => !es.isEmpty && es.length % 5 == 0
  | 23, _ :: fs => !fs.isEmpty && wholeFields fs.length fs
  | 26, [_] => true
  | _, _ => false

/-- The request a valid frame carries (R189, R191). -/
def readRequest (kind : Byte) (payload : List Byte) : Request :=
  match readParameters kind.toNat payload with
  | some q => q
  | none => if ownOrder kind.toNat payload then .unnamed kind else .malformed kind

/-! ## Requests: writing -/

/-- The KIND of a request (R187). -/
def requestKind : Request → Byte
  | .ping => 1
  | .linkStatus => 2
  | .profileStage .. => 3
  | .profileCommit => 4
  | .profileAbandon => 5
  | .profileGet _ => 6
  | .postureGet => 7
  | .claim .. => 8
  | .release _ => 9
  | .roomMove .. => 10
  | .roomStop _ => 11
  | .jackAuto .. => 12
  | .jackSeek .. => 13
  | .jackJog .. => 14
  | .jackRetract .. => 15
  | .jackStop => 16
  | .awningMove .. => 17
  | .awningStop => 18
  | .stopAll => 19
  | .holdRefresh _ => 20
  | .attentionSet _ => 21
  | .linesSet _ => 22
  | .mapWrite .. => 23
  | .mapRead _ => 24
  | .faultGet _ => 25
  | .faultClear _ => 26
  | .malformed k | .unnamed k => k

/-- An optional parameter: its presence byte, then its value, zeros where it is absent (R191). -/
def writeOptional (v : Option (List Byte)) (width : Nat) : List Byte :=
  match v with
  | some bs => 1 :: bs
  | none => 0 :: List.replicate width 0

/-- An optional generation. -/
def writeGen (g : Option Generation) : List Byte := writeOptional (g.map stampBytes) 4

/-- One field entry of a MAP_WRITE. -/
def writeField : MapField → List Byte
  | .polarity v => [0, byte v.ctorIdx]
  | .debounce n => 1 :: u16 n
  | .trigger v => [2, byte v.ctorIdx]
  | .mask v => [3, byte v.ctorIdx]
  | .action a => 4 :: actionBytes a
  | .route r => [5, routeByte r]

/-- The parameters of a request (R191). -/
def writeParameters : Request → List Byte
  | .ping | .linkStatus | .profileCommit | .profileAbandon | .postureGet | .jackStop | .awningStop | .stopAll
  | .malformed _ | .unnamed _ => []
  | .profileStage s es => byte (sectionNumber s) :: es.flatMap fun e => byte e.1 :: i32 e.2
  | .profileGet s => [byte (sectionNumber s)]
  | .claim gs w g => groupSetByte gs :: (if w then 1 else 0) :: writeGen g
  | .release gs => [groupSetByte gs]
  | .roomMove r d m t g =>
    groupByte r :: byte d.ctorIdx :: byte m.ctorIdx :: writeOptional (t.map i16) 2 ++ writeGen g
  | .roomStop g | .holdRefresh g => [groupByte g]
  | .jackAuto m g | .jackSeek m g | .jackRetract m g => byte m.ctorIdx :: writeGen g
  | .jackJog js d m g =>
    byte ((allJacks.map fun j => if j ∈ js then 2 ^ j.val else 0).sum) :: byte d.ctorIdx :: byte m.ctorIdx
      :: writeGen g
  | .awningMove d m t g => byte d.ctorIdx :: byte m.ctorIdx :: writeOptional (t.map u16) 2 ++ writeGen g
  | .attentionSet v => [byte v]
  | .linesSet sel => sel.flatMap fun e => [lineByte e.1, if e.2 then 1 else 0]
  | .mapWrite l fs => lineByte l :: fs.flatMap writeField
  | .mapRead l => [lineByte l]
  | .faultGet none => [9]
  | .faultGet (some s) | .faultClear s => [subjectByte s]

/-! ## Data of responses -/

/-- The HELD_BY data: group, holder, kind, grant stamp. -/
def heldByBytes (g : Group) (c : Claim) : List Byte :=
  groupByte g :: requesterByte c.holder :: byte c.kind.ctorIdx :: stampBytes c.stamp

/-- The fields of one section as profile values, an empty slot as -2147483648 (R191). -/
def sectionBytes (v : SectionSlots) : List Byte :=
  v.flatMap fun s => match s with
    | some n => i32 n
    | none => i32 (-2147483648)

/-- The posture record followed by the generation (R14, 11.6). DESIGN CHOICE (log 8): a field that is absent, before
the commit or with its group, takes no bytes. -/
def postureBytes (x : Ctx) (u : Units) : List Byte :=
  [flagByte x.c.parkSet, if x.c.ignOn then 1 else 0] ++ u16 x.m.roadSpeed ++ [flagByte x.m.estop]
    ++ (x.presentRooms.flatMap fun n =>
      [byte u.rooms[n].state.ctorIdx, flagByte (x.roomValid n)] ++ i16 (x.roomPosition n)
        ++ [byte (x.lockState n).ctorIdx])
    ++ (if x.running then [byte u.jacks.state.ctorIdx] else [])
    ++ (x.presentJacks.flatMap fun j =>
      [byte (jackState x u j).ctorIdx, if x.contact j then 0 else 255] ++ i16 (x.jackStroke j))
    ++ (if x.awningPresent then byte u.awning.state.ctorIdx :: i16 x.awningPercent else [])
    ++ [flagByte x.m.wind.hold] ++ u16 x.remainingHold
    ++ [flagByte (travelReady x u), flagByte (permit x u), flagByte (faultFlag u .coach)]
    ++ ((allGroups.filter x.present).map fun g => flagByte (faultFlag u (.group g)))
    ++ stampBytes u.generation

end Sys2Proof.Machine
end

