-- ==== Sys2Proof/Machine/Notices.lean ====
section
/-! DEFINITION. The notice router and the response line (R18, R189, R192, R193). -/
namespace Sys2Proof.Machine

/-- The units with the outgoing part of one port changed. -/
def updOut (u : Units) (l : Link) (f : PortOut → PortOut) : Units :=
  { u with out := u.out.set (linkIdx l) (f u.out[linkIdx l]) }

/-- Whether a notice is a POSTURE_CHANGED. -/
def isPostureChanged (n : Notice) : Bool :=
  match n.body with
  | .postureChanged => true
  | _ => false

/-- A notice offered to a LINKED port (R192): a second waiting POSTURE_CHANGED is dropped; a full queue loses it. -/
def offerPort (n : Notice) (p : PortOut) : PortOut :=
  if isPostureChanged n && p.notices.any isPostureChanged then p
  else if p.notices.length < Config.noticeMax then { p with notices := p.notices ++ [n] }
  else { p with lostFlag := true, lostCount := min 255 (p.lostCount + 1) }

/-- A notice offered to one link; a SILENT link drops it (R192). -/
def offerTo (x : Ctx) (l : Link) (b : NoticeBody) (u : Units) : Units :=
  if x.linked l then updOut u l (offerPort { stamp := x.now, body := b }) else u

/-- A notice offered to every LINKED link (R193). -/
def offerAll (x : Ctx) (b : NoticeBody) (u : Units) : Units :=
  allLinks.foldl (fun u l => offerTo x l b u) u

/-- The better of two links for least attention: the lower level, then the lower number (R193). -/
def betterAttention (x : Ctx) (best : Option Link) (l : Link) : Option Link :=
  if x.linked l && (x.port l).attention then
    match best with
    | none => some l
    | some k => if (x.port l).level < (x.port k).level then some l else some k
  else best

/-- The link LEAST_ATTENTION chooses (R193). -/
def leastAttention (x : Ctx) : Option Link := allLinks.foldl (betterAttention x) none

/-- A notice routed by least attention (R193). -/
def offerLeast (x : Ctx) (b : NoticeBody) (u : Units) : Units :=
  match leastAttention x with
  | some l => offerTo x l b u
  | none => offerAll x b u

/-- A notice on the route of a map entry (R193). -/
def offerRoute (x : Ctx) (r : Route) (b : NoticeBody) (u : Units) : Units :=
  match r with
  | .leastAttention => offerLeast x b u
  | .links p q r =>
    let u := if p then offerTo x .ml0 b u else u
    let u := if q then offerTo x .ml1 b u else u
    if r then offerTo x .ml2 b u else u

/-- A notice of a motion: to its requester if that is a link, to the route kept with it if it is WL (R97, R160). -/
def offerMotion (x : Ctx) (q : Requester) (r : Route) (b : NoticeBody) (u : Units) : Units :=
  match q with
  | .link l => offerTo x l b u
  | .wl => offerRoute x r b u

/-- A notice to the holder of a group if that is a link, by least attention otherwise (R137, R152). -/
def offerHolder (x : Ctx) (g : Group) (b : NoticeBody) (u : Units) : Units :=
  match holderOf u g with
  | some (.link l) => offerTo x l b u
  | _ => offerLeast x b u

/-- A response joins the response line of its link (R189). -/
def respond (l : Link) (kind tag : Byte) (s : Status) (data : List Byte) (u : Units) : Units :=
  updOut u l fun p => { p with line := p.line ++ [{ kind := kind ||| 0x80, tag := tag, status := s, data := data }] }

/-- The response of a held FAULT_CLEAR joins the line if its link is LINKED, and is dropped otherwise (R189). -/
def respondHeld (x : Ctx) (h : HeldClear) (s : Status) (u : Units) : Units :=
  if x.linked h.link then respond h.link (requestKind (.faultClear h.subject)) h.tag s [] u else u

end Sys2Proof.Machine
end

