-- ==== Sys2Proof/Machine/Ops.lean ====
section
/-! DEFINITION. The named operations over the image, the budget collections, the claim table and the motion records
that the sequencers share. -/
namespace Sys2Proof.Machine

/-! ## Image (R76) -/

/-- The units with the image changed. -/
def updImage (u : Units) (f : Image → Image) : Units := { u with image := f u.image }

/-- Writes a jack valve. -/
def writeJackValve (j : Fin 6) (v : JackValve) (u : Units) : Units :=
  updImage u fun i => { i with jackValve := i.jackValve.set j v }

/-- Writes every jack valve OFF. -/
def closeJackValves (u : Units) : Units :=
  updImage u fun i => { i with jackValve := Vector.replicate 6 .off }

/-- Writes a room valve. -/
def writeRoomValve (n : Fin 6) (v : RoomValve) (u : Units) : Units :=
  updImage u fun i => { i with roomValve := i.roomValve.set n v }

/-- Writes a room motor. -/
def writeMotor (n : Fin 6) (e : RoomEnd) (v : Motor) (u : Units) : Units :=
  updImage u fun i => imageWithMotor i n e v

/-- Writes the awning motor. -/
def writeAwningMotor (v : Motor) (u : Units) : Units := updImage u fun i => { i with awningMotor := v }

/-- Writes a pin solenoid. -/
def writePin (n : Fin 6) (on : Bool) (u : Units) : Units := updImage u fun i => { i with pin := i.pin.set n on }

/-- The manifold changed. -/
def updManifold (u : Units) (f : Manifold → Manifold) : Units := { u with manifold := f u.manifold }

/-- Writes PUMP; a change starts a new heat interval (R69). -/
def writePump (x : Ctx) (on : Bool) (u : Units) : Units :=
  if u.image.pump = on then u
  else updManifold (updImage u fun i => { i with pump := on }) fun f => { f with heatStart := x.now }

/-! ## Rooms, jacks, awning -/

/-- One room changed. -/
def updRoom (n : Fin 6) (f : Room → Room) (u : Units) : Units := { u with rooms := u.rooms.set n (f u.rooms[n]) }

/-- One room's motion record changed, if it has one. -/
def updRoomMotion (n : Fin 6) (f : RoomMotion → RoomMotion) (u : Units) : Units :=
  updRoom n (fun r => { r with motion := r.motion.map f }) u

/-- One room's state written. -/
def setRoomState (n : Fin 6) (s : RoomState) (u : Units) : Units := updRoom n (fun r => { r with state := s }) u

/-- The jack set changed. -/
def updJacks (f : Jacks → Jacks) (u : Units) : Units := { u with jacks := f u.jacks }

/-- The jack motion record changed, if there is one. -/
def updJackMotion (f : JackMotion → JackMotion) (u : Units) : Units :=
  updJacks (fun k => { k with motion := k.motion.map f }) u

/-- The awning changed. -/
def updAwning (f : Awning → Awning) (u : Units) : Units := { u with awning := f u.awning }

/-! ## Budget (Chapter 3) -/

/-- The allocation of a consumer (R48). -/
def allocation (x : Ctx) : Consumer → Nat
  | .pump => x.general 3
  | .drive n => x.roomField n 6
  | .pin n => x.roomField n 7
  | .awning => x.awningField 2

/-- The reserve R (R44): the committed reserve while an awning is present, else 0. -/
def reserve (x : Ctx) : Nat := if x.awningPresent then x.awningField 3 else 0

/-- The sum of all allocations in the admission list. -/
def totalSum (l : List Admission) : Nat := (l.map (·.allocation)).sum

/-- The sum of the non-awning allocations in the admission list. -/
def nonAwningSum (l : List Admission) : Nat := totalSum (l.filter fun a => a.consumer != .awning)

/-- The non-awning bound N (R49). -/
def nonAwningBound (x : Ctx) : Nat := x.m.bLim - reserve x

/-- Whether a consumer fits (R49). -/
def fits (x : Ctx) (u : Units) (k : Consumer) (a : Nat) : Bool :=
  if k = .awning then decide (totalSum u.admissions + a ≤ x.m.bLim)
  else decide (nonAwningSum u.admissions + a ≤ nonAwningBound x)

/-- Whether a consumer is in the admission list. -/
def admitted (u : Units) (k : Consumer) : Bool := u.admissions.any fun a => a.consumer == k

/-- Whether a consumer is in the budget wait queue. -/
def queued (u : Units) (k : Consumer) : Bool := u.budgetQueue.any fun w => w.consumer == k

/-- A consumer joins the tail of the admission list (R50). -/
def joinAdmissions (x : Ctx) (k : Consumer) (a : Nat) (u : Units) : Units :=
  { u with admissions := u.admissions ++ [{ consumer := k, allocation := a, stamp := x.now }] }

/-- A consumer joins the tail of the budget wait queue (R53). -/
def enqueue (x : Ctx) (k : Consumer) (a : Nat) (cause : WaitCause) (u : Units) : Units :=
  let earliest := if cause = .shedOverload then after x.now Config.overloadWaitMs else x.now
  { u with budgetQueue := u.budgetQueue ++
      [{ consumer := k, allocation := a, arrival := x.now, cause := cause, earliest := earliest }] }

/-- The head of the budget wait queue: its oldest non-awning entry (R53). -/
def queueHead (u : Units) : Option BudgetWait := u.budgetQueue.find? fun w => w.consumer != .awning

/-- A request for admission and its answer, true for ADMITTED (R51). -/
def budgetAsk (x : Ctx) (k : Consumer) (u : Units) : Units × Bool :=
  if admitted u k then (u, true)
  else if queued u k then (u, false)
  else
    let a := allocation x k
    if fits x u k a && (k == .awning || (queueHead u).isNone) then (joinAdmissions x k a u, true)
    else (enqueue x k a .request u, false)

/-- Consumers taken out of both collections, and whether the admission pass is to run (R52, R53): one of them left
the admission list or was the head of the queue. -/
def budgetDrop (ks : List Consumer) (u : Units) : Units × Bool :=
  let due := ks.any fun k => admitted u k || (queueHead u).any fun w => w.consumer == k
  ({ u with admissions := u.admissions.filter (fun a => !ks.contains a.consumer)
            budgetQueue := u.budgetQueue.filter (fun w => !ks.contains w.consumer) }, due)

/-! ## Claims (Chapter 2) -/

/-- The claim table entry of a group written. -/
def setClaim (g : Group) (c : Option Claim) (u : Units) : Units := { u with claims := u.claims.set (groupIdx g) c }

/-- The mark of a claim table entry cleared, if the group is held. -/
def clearMark (g : Group) (u : Units) : Units := setClaim g ((claimOf u g).map fun c => { c with mark := false }) u

/-- A group left without a motion record (R29, R31): a transient claim ends, and so does a claim whose release mark
is set. -/
def claimMotionLeft (g : Group) (u : Units) : Units :=
  match claimOf u g with
  | some c => if c.kind = .transient || c.mark then setClaim g none u else u
  | none => u

/-- Every group of a list gets one EXPLICIT holder (R26, R35, R38). -/
def grantGroups (x : Ctx) (l : Link) (gs : List Group) (u : Units) : Units :=
  gs.foldl (fun u g => setClaim g (some { holder := .link l, kind := .explicit, stamp := x.now }) u) u

/-- R33 on one entry: the groups its link came to hold leave its missing set. -/
def shrinkEntry (l : Link) (gs : List Group) (e : WaitEntry) : WaitEntry :=
  if e.link = l then { e with missing := e.missing.filter fun g => !gs.contains g } else e

/-- Groups a link came to hold leave the missing sets of its own wait entries; the claims on them become EXPLICIT with
the present stamp; an entry left with an empty missing set is granted and leaves the list (R33). -/
def absorbHeld (x : Ctx) (l : Link) (gs : List Group) (u : Units) : Units :=
  let wanted := gs.filter fun g => u.waitList.any fun e => e.link == l && e.missing.contains g
  let u := grantGroups x l wanted u
  let list := u.waitList.map (shrinkEntry l gs)
  let granted := list.filter fun e => e.missing.isEmpty
  let u := { u with waitList := list.filter fun e => !e.missing.isEmpty }
  granted.foldl (fun u e => offerTo x e.link (.claimGranted e.tag e.asked x.now) u) u

/-- The claim of an accepted motion request (R28): the requester's own claim loses its mark; an unclaimed group gets a
TRANSIENT claim. -/
def claimForMotion (x : Ctx) (q : Requester) (g : Group) (u : Units) : Units :=
  match claimOf u g with
  | some _ => clearMark g u
  | none =>
    let u := setClaim g (some { holder := q, kind := .transient, stamp := x.now }) u
    match q with
    | .link l => absorbHeld x l [g] u
    | .wl => u

/-- The hold source of a motion request (R100, R107): the deadman deadline of a link, the delivering line of WL. -/
def holdSource (x : Ctx) (mode : Mode) (line : Option Line) : HoldSource :=
  match mode, line with
  | .full, _ => .none
  | .hold, none => .deadline (after x.now x.deadman)
  | .hold, some l => .line l

/-- MOTION_DONE of a motion (R97, R121, R143). -/
def motionDone (x : Ctx) (g : Group) (q : Requester) (r : Route) (res : MotionResult) (u : Units) : Units :=
  offerMotion x q r (.motionDone g res (x.position g)) u

end Sys2Proof.Machine
end

