-- ==== Sys2Proof/Machine/Drive.lean ====
section
/-! DEFINITION. Drives, turns and admissions: starting and holding the drive of a room, of the jacks and of the awning;
the manifold's turn; the budget's admission pass and its sheds (Chapters 3, 4, 6, 7, 8). A step whose end condition
already holds when it begins is ended by the settlement of the event (Machine/Settle.lean). -/
namespace Sys2Proof.Machine

/-! ## Room drive -/

/-- The motor direction of a motion's direction. -/
def motorDir : Direction → MotorDir
  | .outward => .outward
  | .inward => .inward

/-- The state a room shows while it drives or dwells in a direction (R95). -/
def drivingState : Direction → RoomState
  | .outward => .extending
  | .inward => .retracting

/-- The end position of an extend (R103): the target, or the stroke. -/
def endPosition (x : Ctx) (n : Fin 6) (m : RoomMotion) : Int := m.target.getD (x.roomStroke n)

/-- Whether one end already stands at its end position (R102, log 27): its in-switch for IN, the count for OUT. -/
def endReached (x : Ctx) (n : Fin 6) (m : RoomMotion) (e : RoomEnd) : Bool :=
  match m.dir with
  | .inward => x.inSwitch n e
  | .outward => decide (endPosition x n m ≤ x.endCount n e)

/-- The sync hold of a room cleared without a release (R90). -/
def clearSync (n : Fin 6) (u : Units) : Units := updRoom n (fun r => { r with syncHold := none }) u

/-- The drive stopped: each motor NONE and 0, the valve OFF (R112). -/
def stopDrive (n : Fin 6) (u : Units) : Units :=
  clearSync n (writeRoomValve n .off (writeMotor n .b {} (writeMotor n .a {} u)))

/-- One motor at duty 0 with its direction kept (R76). -/
def holdMotor (n : Fin 6) (e : RoomEnd) (u : Units) : Units :=
  writeMotor n e { (imageMotor u.image n e) with duty := 0 } u

/-- The drive held off: motors at duty 0 with their directions kept, the valve OFF, the sync hold cleared (R90). -/
def pauseDrive (n : Fin 6) (u : Units) : Units :=
  clearSync n (writeRoomValve n .off (holdMotor n .b (holdMotor n .a u)))

/-- One motor started or resumed with a fresh soft-start ramp (R88). -/
def startMotor (x : Ctx) (n : Fin 6) (e : RoomEnd) (d : MotorDir) (u : Units) : Units :=
  let u := writeMotor n e { dir := d, duty := shapedDuty (x.roomSlow n e) x.now x.now } u
  updRoom n (fun r => match e with
    | .a => { r with rampA := x.now }
    | .b => { r with rampB := x.now }) u

/-- One end at the start of a drive: driven unless it already stands at its end position; a resumed drive drives only
the ends that kept the direction (R76, R102, R110). -/
def startEnd (x : Ctx) (n : Fin 6) (m : RoomMotion) (resume : Bool) (u : Units) (e : RoomEnd) : Units :=
  if endReached x n m e || (resume && (imageMotor u.image n e).dir != motorDir m.dir) then writeMotor n e {} u
  else startMotor x n e (motorDir m.dir) u

/-- A sync hold entered while the room was paused lasts over its resumption, unless an end is at NONE (R90, log 42). -/
def keepHeld (n : Fin 6) (u : Units) : Units :=
  match u.rooms[n].syncHold with
  | none => u
  | some e =>
    if (u.image.motorA[n]).dir = .none || (u.image.motorB[n]).dir = .none then clearSync n u else holdMotor n e u

/-- The drive channels of a room written in its motion's direction (R102, R109, R110): a drive step that begins drives
every end, one that had begun resumes the ends that kept the direction. -/
def startDrive (x : Ctx) (n : Fin 6) (m : RoomMotion) (u : Units) : Units :=
  if x.electric n then
    let resume := m.begun && (x.ends n).any fun e => (imageMotor u.image n e).dir == motorDir m.dir
    keepHeld n ((x.ends n).foldl (startEnd x n m resume) (if resume then u else clearSync n u))
  else
    writeRoomValve n
      (if endReached x n m .a then .off else match m.dir with | .outward => .extend | .inward => .retract) u

/-- Whether room n holds its drive resource (R102). -/
def hasDrive (x : Ctx) (n : Fin 6) (u : Units) : Bool :=
  if x.electric n then admitted u (.drive n)
  else u.manifold.state == .running && u.manifold.user == some (.room n)

/-- The drive resource is there: the step is DRIVE, and the drive starts unless a pin re-withdrawal still runs
(R102, R109, R110, log 23). -/
def roomReady (x : Ctx) (n : Fin 6) (u : Units) : Units :=
  match u.rooms[n].motion with
  | none => u
  | some m =>
    let starts := m.pinDeadline.isNone
    let u := setRoomState n (drivingState m.dir)
      (updRoomMotion n (fun m => { m with step := .drive, begun := m.begun || starts }) u)
    if starts then startDrive x n m u else u

/-- Whether none of a room's shed resources is still out. -/
def nothingLost (m : RoomMotion) : Bool := !m.lostDrive && !m.lostPin && !m.lostTurn

/-- A notice of a room's motion on its route. -/
def offerRoom (x : Ctx) (n : Fin 6) (b : NoticeBody) (u : Units) : Units :=
  match u.rooms[n].motion with
  | some m => offerMotion x m.requester m.route b u
  | none => u

/-- A paused room whose last shed resource is back resumes (R56, R109, R110). -/
def roomResume (x : Ctx) (n : Fin 6) (u : Units) : Units :=
  match u.rooms[n].motion with
  | none => u
  | some m =>
    if m.step = .pause && nothingLost m then
      let u := offerRoom x n (.resumed (.room n)) u
      if m.dwellEnd.isSome then
        setRoomState n (drivingState m.dir) (updRoomMotion n (fun m => { m with step := .dwell }) u)
      else if hasDrive x n u then roomReady x n u
      else setRoomState n .waiting (updRoomMotion n (fun m => { m with step := .driveWait }) u)
    else u

/-- A room enters PAUSED, with its notice (R55, R110, R111). DEDUCED (log 40): a shed of a room PAUSED already, or told
of another shed in this event, gives none (R55); the interruption of its turn by the pump's heat always gives one (R70).
A PIN n it still waited for is one more thing to wait for. DESIGN CHOICE (log 74): a room in PIN_WAIT or UNPIN whose
drive resource was granted meanwhile enters PAUSED here as well; its pin deadline runs on, and it resumes in step DRIVE
(log 23), not in UNPIN. -/
def enterPaused (x : Ctx) (n : Fin 6) (reason : PauseReason) (told : Bool) (u : Units) : Units :=
  let notice := reason == .pumpHeat || (u.rooms[n].state != .paused && !told)
  let u := setRoomState n .paused
    (updRoomMotion n (fun m => { m with step := .pause, lostPin := m.lostPin || m.step == .pinWait }) (pauseDrive n u))
  if notice then offerRoom x n (.paused (.room n) reason) u else u

/-! ## Jack steps -/

/-- Whether a jack is at its limit for a jog direction (R131). -/
def Ctx.jackAtLimit (x : Ctx) (d : JackDir) (j : Fin 6) : Bool :=
  match d with
  | .down => decide (x.maxStroke ≤ (x.m.counterJ[j]).count)
  | .up => x.m.jackStowed[j]

/-- The valves of the jacks a test picks are written, the others OFF. -/
def driveJacks (v : JackValve) (pick : Fin 6 → Bool) (u : Units) : Units :=
  updImage u fun i => { i with jackValve := Vector.ofFn fun j => if pick j then v else .off }

/-- The valve of a jog direction. -/
def jogValve : JackDir → JackValve
  | .up => .up
  | .down => .down

/-- The step, the set state and the step deadline written. -/
def setJackStep (st : JackStep) (s : JackSetState) (d : Option CoachTime) (u : Units) : Units :=
  updJacks (fun k => { k with
    state := s
    motion := k.motion.map fun m => { m with step := st, deadline := d, resume := none } }) u

/-- The lift fields of the level plan cleared. -/
def clearLift (u : Units) : Units :=
  updJackMotion (fun m => { m with liftAxis := none, lifted := [], threshold := 0 }) u

/-- The SEEK step begins (R124). -/
def beginSeek (x : Ctx) (u : Units) : Units :=
  setJackStep .seek .seeking (some (after x.now (x.jackField 3 * 1000)))
    (driveJacks .down (fun j => x.jackPresent j && !x.contact j) u)

/-- The RESEEK step begins (R130). -/
def beginReseek (x : Ctx) (u : Units) : Units :=
  setJackStep .reseek .levelling (some (after x.now (x.jackField 3 * 1000)))
    (driveJacks .down (fun j => x.jackPresent j && !x.contact j) (clearLift u))

/-- The SETTLE step begins (R127). -/
def beginSettle (x : Ctx) (u : Units) : Units :=
  setJackStep .settle .levelling (some (after x.now Config.settleMs)) (closeJackValves (clearLift u))

/-- The JOG step begins (R131). -/
def beginJog (x : Ctx) (m : JackMotion) (u : Units) : Units :=
  setJackStep .jog .jogging none
    (driveJacks (jogValve m.jogDir) (fun j => m.jogSet.contains j && !x.jackAtLimit m.jogDir j) u)

/-- The RETRACT step begins (R132). -/
def beginRetract (x : Ctx) (u : Units) : Units :=
  setJackStep .retract .retracting (some (after x.now (x.jackField 4 * 1000)))
    (driveJacks .up (fun j => x.jackPresent j && !x.m.jackStowed[j]) u)

/-- A notice of the jack operation on its route. -/
def offerJacks (x : Ctx) (b : NoticeBody) (u : Units) : Units :=
  match u.jacks.motion with
  | some m => offerMotion x m.requester m.route b u
  | none => u

/-- The turn-open report at the levelling sequencer: the first step of an operation, or its resumption (R123, R136). -/
def jackTurnOpen (x : Ctx) (u : Units) : Units :=
  match u.jacks.motion with
  | none => u
  | some m =>
    match m.step with
    | .turnWait =>
      match m.kind with
      | .auto | .seek => beginSeek x u
      | .jog => beginJog x m u
      | .retract => beginRetract x u
    | .pause =>
      let u := offerJacks x (.resumed .jacks) u
      match m.resume with
      | some .settle | some .lift => beginSettle x u
      | some .reseek => if m.unreachable then beginReseek x u else beginSettle x u
      | some .jog => beginJog x m u
      | some .retract => beginRetract x u
      | _ => beginSeek x u
    | _ => u

/-- The jack operation loses the pump and pauses (R136). -/
def jackPause (x : Ctx) (reason : PauseReason) (u : Units) : Units :=
  match u.jacks.motion with
  | none => u
  | some m =>
    let u := clearLift (closeJackValves u)
    let u := updJacks (fun k => { k with
      state := .paused
      motion := k.motion.map fun m => { m with step := .pause, resume := some m.step, deadline := none } }) u
    offerMotion x m.requester m.route (.paused .jacks reason) u

/-! ## The manifold's turn (R62 to R64, R66) -/

/-- The circuit of a user (R62). -/
def userCircuit : ManifoldUser → Circuit
  | .room _ => .room
  | .jacks => .jack

/-- The turn-open report at a room sequencer (R102, R110, R111). -/
def roomTurnOpen (x : Ctx) (n : Fin 6) (u : Units) : Units :=
  match u.rooms[n].motion with
  | none => u
  | some m =>
    let u := updRoomMotion n (fun m => { m with lostTurn := false }) u
    if m.step = .driveWait then roomReady x n u
    else if m.lostTurn then roomResume x n u
    else u

/-- The turn-open report (R64). -/
def turnOpen (x : Ctx) (k : ManifoldUser) (u : Units) : Units :=
  match k with
  | .room n => roomTurnOpen x n u
  | .jacks => jackTurnOpen x u

/-- The manifold enters RUNNING: PUMP ON and turn-open to the turn user (R64, R68). -/
def runTurn (x : Ctx) (u : Units) : Units :=
  let u := updManifold u fun f => { f with state := .running }
  match u.manifold.user with
  | some k => turnOpen x k (writePump x true u)
  | none => u

/-- The manifold asks for PUMP (R64). -/
def askPump (x : Ctx) (u : Units) : Units :=
  let r := budgetAsk x .pump u
  if r.2 then runTurn x r.1 else updManifold r.1 fun f => { f with state := .awaitBudget }

/-- A turn begins (R63). -/
def beginTurn (x : Ctx) (k : ManifoldUser) (u : Units) : Units :=
  let u := updManifold u fun f => { f with user := some k }
  if u.image.diverter = userCircuit k then askPump x u
  else
    updManifold (updImage u fun i => { i with diverter := userCircuit k }) fun f =>
      { f with state := .switching, switchingEnd := some (after x.now Config.switchingMs) }

/-- A user asks for a turn (R62). -/
def askTurn (x : Ctx) (k : ManifoldUser) (u : Units) : Units :=
  if u.manifold.state = .idle then beginTurn x k u
  else if u.manifold.user = some k || u.manifold.queue.any (fun w => w.user == k) then u
  else updManifold u fun f => { f with queue := f.queue ++ [{ user := k }] }

/-- The head of the manifold queue takes its turn, or the manifold returns to IDLE (R63, R67, R71). -/
def nextTurn (x : Ctx) (u : Units) : Units :=
  match u.manifold.queue with
  | [] => updManifold u fun f => { f with state := .idle, user := none }
  | w :: rest => beginTurn x w.user (updManifold u fun f => { f with queue := rest })

/-! ## Awning drive -/

/-- The step of the awning's motion or retract. -/
def awningStep (u : Units) : Option AwningStep :=
  match u.awning.retract, u.awning.motion with
  | some r, _ => some r.step
  | none, some m => some m.step
  | none, none => none

/-- The direction of the awning's motion; a retract runs IN. -/
def awningDir (u : Units) : Direction :=
  match u.awning.retract, u.awning.motion with
  | none, some m => m.dir
  | _, _ => .inward

/-- The dwell end of the awning's motion or retract. -/
def awningDwellEnd (u : Units) : Option CoachTime :=
  match u.awning.retract, u.awning.motion with
  | some r, _ => r.dwellEnd
  | none, some m => m.dwellEnd
  | none, none => none

/-- The step and the dwell end of the awning's motion or retract written. -/
def setAwningStep (st : AwningStep) (d : Option CoachTime) (u : Units) : Units :=
  updAwning (fun a => match a.retract with
    | some r => { a with retract := some { r with step := st, dwellEnd := d } }
    | none => { a with motion := a.motion.map fun m => { m with step := st, dwellEnd := d } }) u

/-- The end position of an awning motion OUT (R145). -/
def awningEnd (x : Ctx) (u : Units) : Int :=
  match u.awning.motion with
  | some m => m.target.getD x.awningStroke
  | none => x.awningStroke

/-- Whether the awning's drive already stands at its end (R145): the stowed switch for IN, the count for OUT. -/
def awningAtEnd (x : Ctx) (u : Units) : Bool :=
  match awningDir u with
  | .inward => x.m.awningStowed
  | .outward => decide (awningEnd x u ≤ x.m.counterAw.count)

/-- The DRIVE step of the awning begins or resumes: the motor is written in the direction with a fresh soft start
(R145, R146, R151), unless the end condition already holds. -/
def startAwning (x : Ctx) (u : Units) : Units :=
  let u := setAwningStep .drive none u
  if awningAtEnd x u then writeAwningMotor {} u
  else
    updAwning (fun a => { a with ramp := x.now })
      (writeAwningMotor { dir := motorDir (awningDir u), duty := shapedDuty x.awningSlow x.now x.now } u)

/-- A notice of the awning's motion or retract (R143, R152). -/
def offerAwning (x : Ctx) (b : NoticeBody) (u : Units) : Units :=
  match u.awning.retract, u.awning.motion with
  | some _, _ => offerHolder x .awning b u
  | none, some m => offerMotion x m.requester m.route b u
  | none, none => u

/-! ## Admission (R50, R53, R56) -/

/-- PIN n is admitted to a room that waits for it: UNPIN begins, or a shed solenoid comes back (R101, R110). -/
def pinGranted (x : Ctx) (n : Fin 6) (u : Units) : Units :=
  match u.rooms[n].motion with
  | none => u
  | some m =>
    let deadline := some (after x.now (x.timing 4))
    let u := updRoomMotion n (fun m => { m with lostPin := false, pinDeadline := deadline }) (writePin n true u)
    match m.step with
    | .pinWait => setRoomState n .unpinning (updRoomMotion n (fun m => { m with step := .unpin }) u)
    | .unpin => offerRoom x n (.resumed (.room n)) u
    | _ => if m.lostPin then roomResume x n u else u

/-- DRIVE n is admitted to a room that waits for it (R102, R110). -/
def driveGranted (x : Ctx) (n : Fin 6) (u : Units) : Units :=
  match u.rooms[n].motion with
  | none => u
  | some m =>
    let u := updRoomMotion n (fun m => { m with lostDrive := false }) u
    if m.step = .driveWait then roomReady x n u
    else if m.lostDrive then roomResume x n u
    else u

/-- AWNING is admitted (R145, R146, R151, R152). -/
def awningGranted (x : Ctx) (shed : Bool) (u : Units) : Units :=
  let u := if shed then offerAwning x (.resumed .awning) u else u
  match awningStep u with
  | some .dwell => if (awningDwellEnd u).isSome then u else startAwning x u
  | some _ => startAwning x u
  | none => u

/-- The requesting unit is told of an admission from the queue (R50, R56). -/
def granted (x : Ctx) (w : BudgetWait) (u : Units) : Units :=
  match w.consumer with
  | .pump => runTurn x u
  | .drive n => driveGranted x n u
  | .pin n => pinGranted x n u
  | .awning => awningGranted x (w.cause != .request) u

/-- Whether a queued consumer may be admitted now: it fits, and its earliest-admission time has been reached (R53). -/
def admissible (x : Ctx) (u : Units) (w : BudgetWait) : Bool :=
  fits x u w.consumer w.allocation && (w.cause != .shedOverload || reached w.earliest x.now)

/-- A queued consumer moves to the tail of the admission list and its unit is told. -/
def admitQueued (x : Ctx) (w : BudgetWait) (u : Units) : Units :=
  granted x w (joinAdmissions x w.consumer w.allocation
    { u with budgetQueue := u.budgetQueue.filter fun v => v.consumer != w.consumer })

/-- The heads admitted one after another, until one is not (R53); at most 14 consumers exist. -/
def passHeads (x : Ctx) : Nat → Units → Units
  | 0, u => u
  | fuel + 1, u =>
    match queueHead u with
    | none => u
    | some w => if admissible x u w then passHeads x fuel (admitQueued x w u) else u

/-- AWNING admitted wherever it stands in the queue (R53). -/
def passAwning (x : Ctx) (u : Units) : Units :=
  match u.budgetQueue.find? fun w => w.consumer == .awning with
  | some w => if admissible x u w then admitQueued x w u else u
  | none => u

/-- The admission pass (R53). -/
def admissionPass (x : Ctx) (u : Units) : Units :=
  if x.running then passHeads x 14 (passAwning x u) else u

/-- Consumers given up, with the admission pass where it is due (R52). -/
def giveUp (x : Ctx) (ks : List Consumer) (u : Units) : Units :=
  let r := budgetDrop ks u
  if r.2 then admissionPass x r.1 else r.1

/-- The turn of the turn user ends (R63, R67). -/
def turnEnd (x : Ctx) (u : Units) : Units :=
  match u.manifold.state with
  | .switching => updManifold u fun f => { f with user := none }
  | .running | .awaitBudget =>
    nextTurn x (updManifold (giveUp x [.pump] (writePump x false u)) fun f => { f with user := none })
  | .idle | .cooling => u

/-- A user's motion ends or its hydraulic step ends: its turn ends, or its entry leaves the queue (R65, R67). -/
def leaveManifold (x : Ctx) (k : ManifoldUser) (u : Units) : Units :=
  if u.manifold.user = some k then turnEnd x u
  else updManifold u fun f => { f with queue := f.queue.filter fun w => w.user != k }

/-! ## Shedding (R54, R55, R57) -/

/-- The group a shed of a consumer pauses: for PUMP the turn's user (R55, R60). -/
def consumerGroup (u : Units) : Consumer → Option Group
  | .drive n | .pin n => some (.room n)
  | .pump => match u.manifold.user with
    | some (.room n) => some (.room n)
    | some .jacks => some .jacks
    | none => none
  | .awning => some .awning

/-- A consumer's outputs go off and its group pauses (R55, R68, R110, R111, R145); `told` says that an earlier shed of
the event has sent the group its notice. -/
def shedEffect (x : Ctx) (k : Consumer) (told : Bool) (u : Units) : Units :=
  match k with
  | .drive n => enterPaused x n .budget told (updRoomMotion n (fun m => { m with lostDrive := true }) u)
  | .pin n =>
    let u := updRoomMotion n (fun m => { m with lostPin := true, pinDeadline := none }) (writePin n false u)
    if u.rooms[n].motion.any (fun m => m.step == .unpin) then offerRoom x n (.paused (.room n) .budget) u
    else enterPaused x n .budget told u
  | .pump =>
    let u := updManifold (writePump x false u) fun f => { f with state := .awaitBudget }
    match u.manifold.user with
    | some (.room n) => enterPaused x n .budget told (updRoomMotion n (fun m => { m with lostTurn := true }) u)
    | some .jacks => jackPause x .budget u
    | none => u
  | .awning =>
    offerAwning x (.paused .awning .budget) (writeAwningMotor { u.image.awningMotor with duty := 0 } u)

/-- One consumer shed: it leaves the admission list and joins the tail of the queue with its cause (R54, R57). `told`
lists the groups that the event's earlier sheds have paused. -/
def shed (x : Ctx) (a : Admission) (cause : WaitCause) (told : List Group) (u : Units) : Units :=
  shedEffect x a.consumer ((consumerGroup u a.consumer).any told.contains)
    (enqueue x a.consumer a.allocation cause
      { u with admissions := u.admissions.filter fun b => b.consumer != a.consumer })

/-- The newest non-awning admission. -/
def newestNonAwning (u : Units) : Option Admission := u.admissions.reverse.find? fun a => a.consumer != .awning

/-- Non-awning consumers shed, newest first, until their sum is within N (R54); a group that loses two gets one notice
(R55). -/
def shedToBound (x : Ctx) : Nat → List Group → Units → Units
  | 0, _, u => u
  | fuel + 1, told, u =>
    if nonAwningSum u.admissions ≤ nonAwningBound x then u
    else match newestNonAwning u with
      | some a => shedToBound x fuel ((consumerGroup u a.consumer).toList ++ told) (shed x a .shedLimit told u)
      | none => u

/-- The sheds of a new limit (R54). -/
def shedToLimit (x : Ctx) (u : Units) : Units :=
  let u := shedToBound x 14 [] u
  if totalSum u.admissions ≤ x.m.bLim then u
  else match u.admissions.find? fun a => a.consumer == .awning with
    | some a => shed x a .shedLimit [] u
    | none => u

/-- Whether the admission list fits the limit (R49). -/
def withinLimit (x : Ctx) (u : Units) : Bool :=
  decide (nonAwningSum u.admissions ≤ nonAwningBound x) && decide (totalSum u.admissions ≤ x.m.bLim)

/-- What a new limit does in RUN (R45, R54): it sheds, or the admission pass runs. -/
def applyLimit (x : Ctx) (u : Units) : Units :=
  if !x.running then u else if withinLimit x u then admissionPass x u else shedToLimit x u

/-! ## Room sequence (R100 to R102, R105) -/

/-- The drive request step (R102). DESIGN CHOICE (log 68): a HYDRAULIC room that finds its own turn in RUNNING, the
answer HOLDING of R62, starts its drive in this event; R62 gives the opening of its valve by the turn-open report
alone. -/
def driveRequest (x : Ctx) (n : Fin 6) (u : Units) : Units :=
  let u := setRoomState n .waiting (updRoomMotion n (fun m => { m with step := .driveWait, pinDeadline := none }) u)
  if x.electric n then
    let r := budgetAsk x (.drive n) u
    if r.2 then roomReady x n r.1 else r.1
  else
    let held := hasDrive x n u
    let u := askTurn x (.room n) u
    if held then roomReady x n u else u

/-- The pin withdrawal step (R101). -/
def pinWithdraw (x : Ctx) (n : Fin 6) (u : Units) : Units :=
  let u := setRoomState n .waiting (updRoomMotion n (fun m => { m with step := .pinWait }) u)
  let r := budgetAsk x (.pin n) u
  if r.2 then pinGranted x n r.1 else r.1

/-- The pin engagement step begins (R105); its completion is the settlement's. -/
def pinEngage (x : Ctx) (n : Fin 6) (pending : Option MotionResult) (u : Units) : Units :=
  setRoomState n .pinning
    (updRoomMotion n (fun m => { m with
      step := .pinEngage, pending := pending, pinDeadline := some (after x.now (x.timing 4)), dwellEnd := none
      lostDrive := false, lostPin := false, lostTurn := false }) u)

/-- The sequence of a new motion begins (R100). DESIGN CHOICE (log 70): R100 has no row for IN at a made in-switch
without a lock or with the pin in its socket, as of a room left PARTIAL there; it begins with the drive request, or
with the pin engagement where there is a lock. -/
def beginSequence (x : Ctx) (n : Fin 6) (d : Direction) (u : Units) : Units :=
  match d, x.roomIn n, x.locked n with
  | .outward, true, true => pinWithdraw x n u
  | .inward, true, true => pinEngage x n none u
  | _, _, _ => driveRequest x n u

/-- The pin stands withdrawn: the withdrawal step completes, and a re-withdrawal lets the drive start (R101, R110). -/
def pinWithdrawn (x : Ctx) (n : Fin 6) (u : Units) : Units :=
  match u.rooms[n].motion with
  | none => u
  | some m =>
    let u := updRoomMotion n (fun m => { m with pinDeadline := none, begun := m.begun || m.step == .drive }) u
    match m.step with
    | .unpin => driveRequest x n u
    | .drive => startDrive x n m u
    | _ => u

end Sys2Proof.Machine
end

