-- ==== Sys2Proof/Machine/MotionEnd.lean ====
section
/-! DEFINITION. How motions end (R97, R112, R121, R133, R143, R147, R152), alone or several in one event. -/
namespace Sys2Proof.Machine

/-- The record of a room's motion removed. -/
def dropRoomMotion (n : Fin 6) (u : Units) : Units := updRoom n (fun r => { r with motion := none }) u

/-- A room's drive outputs and its solenoid off (R97). -/
def roomOutputsOff (n : Fin 6) (u : Units) : Units := writePin n false (stopDrive n u)

/-- Whether PUMP is asked for by room n's own turn and still waits (R64, R68). -/
def waitsForPump (n : Fin 6) (u : Units) : Bool :=
  u.manifold.user == some (.room n) && u.manifold.state == .awaitBudget

/-- The consumers a room gives up: DRIVE n and PIN n, and with them PUMP while it waits for the room's own turn. -/
def roomConsumers (n : Fin 6) (u : Units) : List Consumer :=
  [.drive n, .pin n] ++ if waitsForPump n u then [.pump] else []

/-- A room gives up its consumers, and its turn or its place in the manifold queue (R52, R65, R67). DEDUCED (log 76):
a PUMP that waits for the room's turn leaves the budget wait queue together with the room's own consumers, before their
admission pass runs, so the ending event does not admit it (R59, R75). -/
def roomRelease (x : Ctx) (n : Fin 6) (u : Units) : Units :=
  leaveManifold x (.room n) (giveUp x (roomConsumers n u) u)

/-- A room motion ends with a result and leaves the room in a state (R97). -/
def endRoom (x : Ctx) (n : Fin 6) (res : MotionResult) (st : RoomState) (u : Units) : Units :=
  match u.rooms[n].motion with
  | none => u
  | some m =>
    let u := setRoomState n st (dropRoomMotion n (roomOutputsOff n u))
    claimMotionLeft (.room n) (motionDone x (.room n) m.requester m.route res (roomRelease x n u))

/-- The stop procedure of a room motion in any step but PIN_ENGAGE (R112). -/
def roomStopProcedure (x : Ctx) (n : Fin 6) (res : MotionResult) (u : Units) : Units :=
  if x.roomIn n && x.locked n && x.lockState n != .engaged then
    roomRelease x n (pinEngage x n (some res) (roomOutputsOff n u))
  else endRoom x n res (x.roomStopped n) u

/-- Whether a room's motion stands in PIN_ENGAGE. -/
def inPinEngage (u : Units) (n : Fin 6) : Bool := u.rooms[n].motion.any fun m => m.step == .pinEngage

/-- The record of the jack operation removed, with its state. -/
def dropJackMotion (st : JackSetState) (u : Units) : Units :=
  updJacks (fun k => { k with motion := none, state := st }) u

/-- A jack operation ends with a result and leaves the set in a state (R121). -/
def endJacks (x : Ctx) (res : MotionResult) (st : JackSetState) (u : Units) : Units :=
  match u.jacks.motion with
  | none => u
  | some m =>
    let u := leaveManifold x .jacks (dropJackMotion st (closeJackValves u))
    claimMotionLeft .jacks (motionDone x .jacks m.requester m.route res u)

/-- An owner's motion of the awning ends with a result and leaves the awning in a state (R143, R147). DESIGN CHOICE
(log 65): the motor is NONE from then on, against R154's remark on a stop, and its coasting pulses do not count. -/
def endAwning (x : Ctx) (res : MotionResult) (st : AwningState) (u : Units) : Units :=
  match u.awning.motion with
  | none => u
  | some m =>
    let u := updAwning (fun a => { a with motion := none, state := st }) (writeAwningMotor {} u)
    claimMotionLeft .awning (motionDone x .awning m.requester m.route res (giveUp x [.awning] u))

/-- An internal retract ends and leaves the awning in a state; WIND(RETRACT_DONE) is sent if it completed
(R152, R153). -/
def endRetract (x : Ctx) (completed : Bool) (st : AwningState) (u : Units) : Units :=
  match u.awning.retract with
  | none => u
  | some r =>
    let u := updAwning (fun a => { a with retract := none, state := st }) (writeAwningMotor {} u)
    let u := giveUp x [.awning] u
    if completed then offerHolder x .awning (.windNotice .retractDone (some r.cause)) u else u

/-- The stop procedure of a group's motion (R112, R133, R147); a room in PIN_ENGAGE is left as it is. -/
def stopMotion (x : Ctx) (g : Group) (res : MotionResult) (u : Units) : Units :=
  match g with
  | .room n => if u.rooms[n].motion.isSome && !inPinEngage u n then roomStopProcedure x n res u else u
  | .jacks => endJacks x res x.jacksSettled u
  | .awning => endAwning x res x.awningSettled u

/-- A group's motion ends at once and the group takes its settled state (R115, R135, R147). -/
def abortMotion (x : Ctx) (res : MotionResult) (u : Units) (g : Group) : Units :=
  match g with
  | .room n => endRoom x n res (x.roomSettled n) u
  | .jacks => endJacks x res x.jacksSettled u
  | .awning => endAwning x res x.awningSettled u

/-- The consumers a group's motion may have waiting; a turn user also answers for PUMP. -/
def groupConsumers (u : Units) : Group → List Consumer
  | .room n => [.drive n, .pin n] ++ (if u.manifold.user = some (.room n) then [.pump] else [])
  | .jacks => if u.manifold.user = some .jacks then [.pump] else []
  | .awning => [.awning]

/-- The manifold user of a group. -/
def groupUser : Group → Option ManifoldUser
  | .room n => some (.room n)
  | .jacks => some .jacks
  | .awning => none

/-- The waiting entries of several groups leave the budget wait queue and the manifold queue before any of their
motions ends (R67, R115, log 35), and whether the head of the budget queue left. -/
def detach (gs : List Group) (u : Units) : Units × Bool :=
  let ks := gs.flatMap (groupConsumers u)
  let users := gs.filterMap groupUser
  let due := (queueHead u).any fun w => ks.contains w.consumer
  (updManifold { u with budgetQueue := u.budgetQueue.filter fun w => !ks.contains w.consumer } fun f =>
    { f with queue := f.queue.filter fun w => !users.contains w.user }, due)

/-- Several motions ended in one event, each by `f` (log 35). -/
def endAll (x : Ctx) (gs : List Group) (f : Units → Group → Units) (u : Units) : Units :=
  let r := detach gs u
  let v := gs.foldl f r.1
  if r.2 then admissionPass x v else v

/-- The groups with a motion record. -/
def movingGroups (u : Units) : List Group := allGroups.filter fun g => (motionRequester u g).isSome

/-- Every motion of a requester ended at once with a result (R20, R175). -/
def abortAll (x : Ctx) (res : MotionResult) (u : Units) : Units := endAll x (movingGroups u) (abortMotion x res) u

end Sys2Proof.Machine
end

