-- ==== Sys2Proof/Machine/Halts.lean ====
section
/-! DEFINITION. The fault unit: raises, class A and class B halts, present marks, confirmation and clearing
(Chapter 10). -/
namespace Sys2Proof.Machine

/-- A fault record written. -/
def setFault (s : Subject) (r : FaultRecord) (u : Units) : Units := { u with faults := u.faults.set (subjectIdx s) r }

/-- A record after a raise (R173). -/
def raisedRecord (now : CoachTime) (k : FaultCode) (d : Detail) (r : FaultRecord) : FaultRecord where
  state := .active
  codes := if r.codes.any (fun e => e.1 == k) then r.codes.map fun e => if e.1 == k then (k, persistent k) else e
    else r.codes ++ [(k, persistent k)]
  firstStamp := if r.state = .empty then some now else r.firstStamp
  lastStamp := some now
  count := min 255 (r.count + 1)
  detail := d
  confirmed := false

/-- The present mark of a code cleared, if it stands in the record (R172). -/
def clearPresent (s : Subject) (k : FaultCode) (u : Units) : Units :=
  let r := faultOf u s
  setFault s { r with codes := r.codes.map fun e => if e.1 == k then (k, false) else e } u

/-- The frame in flight no longer confirms a record's halt (R174, R185). -/
def unconfirmFlight (s : Subject) (u : Units) : Units :=
  { u with flight := u.flight.map fun f => { f with confirms := f.confirms.set (subjectIdx s) false } }

/-- The held clears a test picks are answered STILL_ACTIVE and leave (R182). -/
def answerStillActive (x : Ctx) (pick : HeldClear → Bool) (u : Units) : Units :=
  let picked := u.heldClears.filter pick
  picked.foldl (fun u h => respondHeld x h .stillActive u)
    { u with heldClears := u.heldClears.filter fun h => !pick h }

/-- The sequencer of a group, idle or not, halted (R177): outputs off, resources given up, the motion ended
ABORTED_FAULT, an internal retract ended, the group in FAULT. -/
def haltGroup (x : Ctx) (g : Group) (u : Units) : Units :=
  match g with
  | .room n =>
    setRoomState n .fault (roomRelease x n (roomOutputsOff n (endRoom x n .abortedFault .fault u)))
  | .jacks =>
    updJacks (fun k => { k with state := .fault })
      (leaveManifold x .jacks (closeJackValves (endJacks x .abortedFault .fault u)))
  | .awning =>
    let u := endRetract x false .fault (endAwning x .abortedFault .fault u)
    updAwning (fun a => { a with state := .fault }) (giveUp x [.awning] (writeAwningMotor {} u))

/-- The jack that takes the jack state FAULT (R139). -/
def faultedJack (k : FaultCode) (d : Detail) : Option (Fin 6) :=
  match k, d with
  | .stall, .jack j | .noGround, .jack j | .pjRange, .jack j => some j
  | .trip, .channel i => channelJack i
  | _, _ => none

/-- The class B halt (R177, R139). -/
def haltB (x : Ctx) (g : Group) (k : FaultCode) (d : Detail) (u : Units) : Units :=
  let u := haltGroup x g u
  match g, faultedJack k d with
  | .jacks, some j => updJacks (fun r => { r with fault := r.fault.set j true }) u
  | _, _ => u

/-- Every present group not in FAULT takes its settled state (R176). -/
def settleGroups (x : Ctx) (u : Units) : Units :=
  if !x.running then u else
  let u := x.presentRooms.foldl (fun u n =>
    if u.rooms[n].state = .fault then u else setRoomState n (x.roomSettled n) u) u
  let u := updJacks (fun k => if k.state = .fault then k else { k with state := x.jacksSettled }) u
  if x.awningPresent && u.awning.state != .fault then updAwning (fun a => { a with state := x.awningSettled }) u
  else u

/-- The image set all off and CHAIN_EN low; the budget and manifold collections emptied (R58, R72, R175). -/
def dropEverything (x : Ctx) (u : Units) : Units :=
  let u := updImage (writePump x false u) imageDriveOff
  { u with
    chainEn := false
    rooms := Vector.ofFn fun n => { u.rooms[n] with syncHold := none }
    admissions := []
    budgetQueue := []
    overload := none
    manifold := { heatStart := u.manifold.heatStart } }

/-- The class A halt (R175); the permit falls with the COACH record, and its effects follow in the settlement. -/
def haltA (x : Ctx) (u : Units) : Units :=
  let u := abortAll x .abortedFault (dropEverything x u)
  settleGroups x (endRetract x false x.awningSettled u)

/-- A code raised on a record (R173), with the class of halt of its subject. -/
def raise (x : Ctx) (s : Subject) (k : FaultCode) (d : Detail) (u : Units) : Units :=
  let r := faultOf u s
  let r' := raisedRecord x.now k d r
  let u := unconfirmFlight s (setFault s r' u)
  let u := if r.state != .active || !r.codes.any (fun e => e.1 == k) then
      offerAll x (.faultRaised s k d r'.count .active) u
    else u
  let u := answerStillActive x (fun h => h.subject == s || k == .chainEcho) u
  match s with
  | .coach => haltA x u
  | .group g => haltB x g k d u

/-- A class B code is raised on a present group alone (R178). -/
def raiseGroup (x : Ctx) (g : Group) (k : FaultCode) (d : Detail) (u : Units) : Units :=
  if x.present g then raise x (.group g) k d u else u

/-- A persistent code kept in step with its condition: raised at its onset, its mark cleared at its end (R172). -/
def trackCondition (x : Ctx) (s : Subject) (k : FaultCode) (d : Detail) (condition : Bool) (u : Units) : Units :=
  if condition then (if marked (faultOf u s) k then u else raise x s k d u)
  else if marked (faultOf u s) k then clearPresent s k u else u

/-- The trip of a channel (R81): PUMP_TRIP on COACH, or TRIP on the present group that owns the channel. -/
def raiseTrip (x : Ctx) (k : Fin 33) (u : Units) : Units :=
  match channelOwner k with
  | none => raise x .coach .pumpTrip (.channel k) u
  | some g => raiseGroup x g .trip (.channel k) u

/-- A present group leaves FAULT and takes its settled state (R183). -/
def leaveFault (x : Ctx) (g : Group) (u : Units) : Units :=
  match g with
  | .room n => setRoomState n (x.roomSettled n) u
  | .jacks => updJacks (fun k => { k with state := x.jacksSettled, fault := Vector.replicate 6 false }) u
  | .awning => updAwning (fun a => { a with state := x.awningSettled }) u

/-- A record cleared for a link (R183). -/
def clearRecord (x : Ctx) (s : Subject) (l : Link) (u : Units) : Units :=
  let u := offerAll x (.faultCleared s l) (setFault s {} u)
  match subjectGroup s with
  | some g => if x.present g then leaveFault x g u else u
  | none => u

/-- ACTIVE becomes CLEARABLE once no present mark is set and the confirmation is DONE (R174). -/
def settleRecord (r : FaultRecord) : FaultRecord :=
  if r.state = .active ∧ r.confirmed ∧ !r.codes.any (·.2) then { r with state := .clearable } else r

/-- Every record brought to CLEARABLE where R174 says so. -/
def settleRecords (u : Units) : Units := { u with faults := Vector.ofFn fun i => settleRecord u.faults[i] }

end Sys2Proof.Machine
end

