-- ==== Sys2Proof/Machine/Claims.lean ====
section
/-! DEFINITION. The claim unit: releases, the grant walk and preemption (Chapter 2). -/
namespace Sys2Proof.Machine

/-- The pending result of a room in PIN_ENGAGE written (R105). -/
def setPending (n : Fin 6) (res : Option MotionResult) (u : Units) : Units :=
  updRoomMotion n (fun m => { m with pending := res }) u

/-- A group's motion stopped on behalf of a RELEASE or of link silence (R31, R41, R105). -/
def stopForLink (x : Ctx) (res : MotionResult) (g : Group) (u : Units) : Units :=
  match g with
  | .room n => if inPinEngage u n then setPending n (some res) u else stopMotion x g res u
  | _ => stopMotion x g res u

/-- The release mark of a held group set. -/
def setMark (g : Group) (u : Units) : Units := setClaim g ((claimOf u g).map fun c => { c with mark := true }) u

/-- One held group released (R30, R31, R41): the claim ends, in this event or, where the motion finishes a step
first, in the event in which the group is left without a motion record. -/
def releaseGroup (x : Ctx) (l : Link) (res : MotionResult) (u : Units) (g : Group) : Units :=
  let u := if motionRequester u g = some (.link l) then stopForLink x res g u else u
  if motionRequester u g = some (.link l) then setMark g u else setClaim g none u

/-- The groups of a list that a link holds. -/
def heldBy (u : Units) (l : Link) (gs : List Group) : List Group :=
  gs.filter fun g => holderOf u g == some (.link l)

/-- Several held groups released in one event. -/
def releaseAll (x : Ctx) (l : Link) (res : MotionResult) (gs : List Group) (u : Units) : Units :=
  let moving := gs.filter fun g => motionRequester u g == some (.link l)
  let r := detach moving u
  let v := gs.foldl (releaseGroup x l res) r.1
  if r.2 then admissionPass x v else v

/-! ## Grants -/

/-- An entry leaves the list and its requester gets its missing set (R35, R38). -/
def grantEntry (x : Ctx) (i : Nat) (e : WaitEntry) (u : Units) : Units :=
  let u := { u with waitList := u.waitList.eraseIdx i }
  let u := offerTo x e.link (.claimGranted e.tag e.asked x.now) (grantGroups x e.link e.missing u)
  absorbHeld x e.link e.missing u

/-- No older entry of the list names a group of the missing set of the entry at place i (R35, R37). -/
def noOlderClash (u : Units) (i : Nat) (e : WaitEntry) : Bool :=
  (u.waitList.take i).all fun o => o.missing.all fun g => !e.missing.contains g

/-- Whether the walk grants the entry at place i (R35). -/
def grantable (u : Units) (i : Nat) (e : WaitEntry) : Bool :=
  e.missing.all (fun g => (claimOf u g).isNone) && noOlderClash u i e

/-- The grant walk from place i on (R35); a granted entry makes room for the next at its place. -/
def walkFrom (x : Ctx) : Nat → Nat → Units → Units
  | 0, _, u => u
  | fuel + 1, i, u =>
    match u.waitList[i]? with
    | none => u
    | some e => if grantable u i e then walkFrom x fuel i (grantEntry x i e u) else walkFrom x fuel (i + 1) u

/-- The grant walk (R34, R35). -/
def grantWalk (x : Ctx) (u : Units) : Units := walkFrom x u.waitList.length 0 u

/-- The claim wait list but for the test marks. -/
def waitEntries (u : Units) : List WaitEntry := u.waitList.map fun e => { e with tested := false }

/-- Whether an event sets off the grant walk (R34): a group's holder became none, or an entry left the list or lost
part of its missing set. Entries join at the tail alone, so neither happened exactly where the list the event found
still heads the list it leaves. -/
def walkDue (u0 u : Units) : Bool :=
  allGroups.any (fun g => (claimOf u0 g).isSome && (claimOf u g).isNone)
    || !(waitEntries u0).isPrefixOf (waitEntries u)

/-! ## Preemption (R37, R38) -/

/-- Whether a held group may be taken for a link: its holder is a link ranked below, it is idle and carries no
release mark, and it is not held TRANSIENT (R37). -/
def takeable (x : Ctx) (u : Units) (l : Link) (g : Group) : Bool :=
  match claimOf u g with
  | none => true
  | some c =>
    match c.holder with
    | .wl => false
    | .link k => decide (x.rank l < x.rank k) && idle u g && !c.mark && c.kind == .explicit

/-- Whether the entry at place i preempts (R37). -/
def preempts (x : Ctx) (u : Units) (i : Nat) (e : WaitEntry) : Bool :=
  e.missing.all (takeable x u e.link) && noOlderClash u i e

/-- CLAIM_LOST to one holder that loses groups (R38). -/
def offerLost (x : Ctx) (e : WaitEntry) (u0 u : Units) (k : Link) : Units :=
  let lost := heldBy u0 k e.missing
  if lost.isEmpty then u else offerTo x k (.claimLost lost (.link e.link)) u

/-- The entry at place i tested for preemption, and its preemption (R37, R38). -/
def testPreemption (x : Ctx) (i : Nat) (e : WaitEntry) (u : Units) : Units :=
  if preempts x u i e then grantEntry x i e (allLinks.foldl (offerLost x e u) u) else u

/-- The tests an event sets off by making groups idle, oldest entry first (R37). -/
def testsFrom (x : Ctx) (fresh : List Group) : Nat → Nat → Units → Units
  | 0, _, u => u
  | fuel + 1, i, u =>
    match u.waitList[i]? with
    | none => u
    | some e =>
      if e.tested && e.missing.any fresh.contains && preempts x u i e then
        testsFrom x fresh fuel i (testPreemption x i e u)
      else testsFrom x fresh fuel (i + 1) u

/-- The groups an event made idle (R24). DESIGN CHOICE (log 51): the two ends of the event are compared, so a motion
created and removed in one event makes no group idle. -/
def madeIdle (u0 u : Units) : List Group := allGroups.filter fun g => !idle u0 g && idle u g

/-- What an event's changes set off at the claim unit: preemption tests, then one grant walk (R34, R37). -/
def settleClaims (x : Ctx) (u0 u : Units) : Units :=
  let u := testsFrom x (madeIdle u0 u) u.waitList.length 0 u
  if walkDue u0 u then grantWalk x u else u

/-- The claim wait list emptied at a permit fall (R20). -/
def emptyWaitList (x : Ctx) (u : Units) : Units :=
  u.waitList.foldl (fun u e => offerTo x e.link (.claimRefused e.tag e.asked .permitLost) u)
    { u with waitList := [] }

end Sys2Proof.Machine
end

