-- ==== Sys2Proof/Machine/Checks.lean ====
section
/-! DEFINITION. The common checks of R17 and who asks. -/
namespace Sys2Proof.Machine

/-- A status with its data. -/
abbrev Reply := Status × List Byte

/-- Who asks for a motion: a link, or WL with the delivering line and the route of its entry (R160). -/
structure Asker where
  who   : Requester
  line  : Option Line := none
  route : Route := .links false false false
  deriving DecidableEq, Repr

/-- The asker of a request from a link. -/
def linkAsker (l : Link) : Asker := { who := .link l }

/-- The first failure among alternatives. -/
def firstFailure (l : List (Bool × Reply)) : Option Reply := (l.find? (·.1)).map (·.2)

/-- The data ABSENT carries: the first absent group. -/
def absentGroup (x : Ctx) (gs : List Group) : Option Group := (allGroups.filter fun g => gs.contains g).find? fun g => !x.present g

/-- Checks 2 and 3 of R17. -/
def checkPresent (x : Ctx) (gs : List Group) : Option Reply :=
  if !x.running then some (.notConfigured, [])
  else (absentGroup x gs).map fun g => (.absent, [groupByte g])

/-- The first group of a set that another requester holds (R23). -/
def blockingGroup (u : Units) (q : Requester) (gs : List Group) : Option (Group × Claim) :=
  (allGroups.filter fun g => gs.contains g).findSome? fun g =>
    match claimOf u g with
    | some c => if c.holder = q then none else some (g, c)
    | none => none

/-- Check 7 of R17. -/
def checkGeneration (u : Units) (gen : Option Generation) : Option Reply :=
  match gen with
  | some v => if v = u.generation then none else some (.stale, stampBytes u.generation)
  | none => none

/-- Checks 5 to 7 of R17 for a motion request on one group. -/
def checkFaultClaimGeneration (u : Units) (q : Requester) (g : Group) (gen : Option Generation) : Option Reply :=
  if faultFlag u .coach then some (.faulted, [subjectByte .coach])
  else if faultFlag u (.group g) then some (.faulted, [groupByte g])
  else match blockingGroup u q [g] with
    | some (h, c) => some (.heldBy, heldByBytes h c)
    | none => checkGeneration u gen

/-- Checks 2 to 7 of R17 for a motion request on one group. -/
def checkMotion (x : Ctx) (u : Units) (q : Requester) (g : Group) (gen : Option Generation) : Option Reply :=
  match checkPresent x [g] with
  | some r => some r
  | none => if !permit x u then some (.permit, []) else checkFaultClaimGeneration u q g gen

end Sys2Proof.Machine
end

