-- ==== Sys2Proof/Machine/AwningRequests.lean ====
section
/-! DEFINITION. AWNING_MOVE and AWNING_STOP (R144 to R147). -/
namespace Sys2Proof.Machine

/-- The state of an owner's motion in a direction (R142). -/
def awningMovingState : Direction → AwningState
  | .outward => .extending
  | .inward => .retracting

/-- The group that blocks an awning motion (R144). -/
def awningInterlock (x : Ctx) (u : Units) (d : Direction) : Option Group :=
  if d = .outward && u.awning.state == .unknown then some .awning
  else if d = .outward && u.awning.state == .stowed then (activeShadowed x u).head?.map .room
  else none

/-- A target in percent as a count of the stroke, rounded down (R143). -/
def percentCount (x : Ctx) (p : Nat) : Int := x.awningStroke * p / 100

/-- The awning controller's own checks, in order (R144). -/
def awningOwnCheck (x : Ctx) (u : Units) (d : Direction) (percent : Option Nat) : Option Reply :=
  if u.awning.retract.isSome then some (.windBusy, [])
  else if d = .outward && x.m.wind.hold then some (.windHold, u16 x.remainingHold)
  else if percent.any fun p => decide (percentCount x p ≤ x.m.counterAw.count) then some (.badRequest, [])
  else none

/-- A new owner's motion (R145). -/
def startOwner (x : Ctx) (a : Asker) (d : Direction) (mode : Mode) (percent : Option Nat) (u : Units) : Units :=
  let m : AwningMotion :=
    { requester := a.who, dir := d, mode := mode, target := percent.map (percentCount x)
      hold := holdSource x mode a.line, route := a.route }
  let u := updAwning (fun r => { r with motion := some m, state := awningMovingState d })
    (claimForMotion x a.who .awning u)
  let r := budgetAsk x .awning u
  if r.2 then startAwning x r.1 else r.1

/-- What a reversal does by the step it finds (R146). -/
def reverseOwnerStep (x : Ctx) (st : AwningStep) (u : Units) : Units :=
  match st with
  | .drive =>
    setAwningStep .dwell (some (after x.now Config.dwellMs))
      (writeAwningMotor { u.image.awningMotor with duty := 0 } u)
  | .dwell | .admitWait => u

/-- An AWNING_MOVE that passed every check, by the awning's state (R144, R146). -/
def handleAwningMove (x : Ctx) (a : Asker) (d : Direction) (mode : Mode) (percent : Option Nat) (u : Units) :
    Units × Reply :=
  match u.awning.motion with
  | none =>
    if (d = .outward && u.awning.state == .out && decide (x.awningStroke ≤ x.m.counterAw.count))
        || (d = .inward && u.awning.state == .stowed) then (u, .ok, [])
    else (startOwner x a d mode percent u, .accepted, [])
  | some m =>
    let renew := fun (k : AwningMotion) => { k with
      requester := a.who, dir := d, mode := mode, target := percent.map (percentCount x)
      hold := holdSource x mode a.line, route := a.route }
    let write := fun (u : Units) => updAwning (fun r => { r with motion := r.motion.map renew }) (clearMark .awning u)
    if m.dir = d then (write u, .ok, [])
    else
      let u := write (motionDone x .awning m.requester m.route .superseded u)
      (reverseOwnerStep x m.step (updAwning (fun r => { r with state := awningMovingState d }) u), .accepted, [])

/-- AWNING_MOVE (R144): the checks of R17 in order, the awning's own checks, then the handling. -/
def awningMove (x : Ctx) (a : Asker) (d : Direction) (mode : Mode) (percent : Option Nat) (gen : Option Generation)
    (u : Units) : Units × Reply :=
  if percent.any (fun p => decide (p = 0 ∨ 100 < p)) || (percent.isSome && (d = .inward || mode = .hold)) then
    (u, .badRequest, [])
  else match checkMotion x u a.who .awning gen with
    | some r => (u, r)
    | none =>
      match awningInterlock x u d with
      | some b => (u, .interlock, [groupByte b])
      | none =>
        match awningOwnCheck x u d percent with
        | some r => (u, r)
        | none => handleAwningMove x a d mode percent u

/-- AWNING_STOP (R147). -/
def awningStop (x : Ctx) (u : Units) : Units × Reply :=
  match checkPresent x [.awning] with
  | some r => (u, r)
  | none =>
    if u.awning.retract.isSome then (u, .windBusy, [])
    else if u.awning.motion.isNone then (u, .notMoving, [])
    else (stopMotion x .awning .stopped u, .ok, [])

end Sys2Proof.Machine
end

