-- ==== Sys2Proof/Machine/JackRequests.lean ====
section
/-! DEFINITION. JACK_AUTO, JACK_SEEK, JACK_JOG, JACK_RETRACT and JACK_STOP (R122, R123, R133). -/
namespace Sys2Proof.Machine

/-- What a jack request asks for. -/
structure JackAsk where
  kind : JackKind
  mode : Mode
  set  : List (Fin 6) := []
  dir  : JackDir := .down

/-- Whether a jack request fails check 1 (R122). -/
def badJackAsk (x : Ctx) (k : JackAsk) : Bool :=
  k.kind == .jog && (k.mode == .full || k.set.isEmpty || !decide k.set.Nodup
    || k.set.any fun j => decide (x.jackField 0 ≤ j.val))

/-- The group that blocks a jack operation (R122). -/
def jackInterlock (x : Ctx) (u : Units) (k : JackAsk) : Option Group :=
  let blocks := fun n => roomStateActive u.rooms[n].state || (k.kind == .retract && u.rooms[n].state != .stowed)
  match x.presentRooms.find? blocks with
  | some n => some (.room n)
  | none =>
    let mismatch := match u.jacks.motion with
      | some m => m.kind != k.kind || (k.kind == .jog && m.jogDir != k.dir)
      | none => false
    if (u.jacks.state == .unknown && k.kind != .retract) || mismatch then some .jacks else none

/-- Whether a request of a set with no operation is answered OK at once (R123). -/
def jackAlready (x : Ctx) (u : Units) (k : JackAsk) : Bool :=
  match k.kind with
  | .auto => false
  | .seek => u.jacks.state == .grounded || u.jacks.state == .levelled
  | .retract => u.jacks.state == .stowed
  | .jog => k.set.all (x.jackAtLimit k.dir)

/-- The state of a kind of operation before its turn opens (R118). -/
def kindState : JackKind → JackSetState
  | .auto | .seek => .seeking
  | .jog => .jogging
  | .retract => .retracting

/-- A new operation (R123). -/
def startJacks (x : Ctx) (a : Asker) (k : JackAsk) (u : Units) : Units :=
  let m : JackMotion :=
    { requester := a.who, kind := k.kind, mode := k.mode, jogSet := k.set, jogDir := k.dir
      hold := holdSource x k.mode a.line, route := a.route }
  askTurn x .jacks
    (updJacks (fun r => { r with motion := some m, state := kindState k.kind }) (claimForMotion x a.who .jacks u))

/-- The valve of one jack under a new jog set, with the turn open (R123). -/
def rejogValve (x : Ctx) (d : JackDir) (old new : List (Fin 6)) (j : Fin 6) (v : JackValve) : JackValve :=
  if new.contains j then
    if old.contains j then v else if x.jackAtLimit d j then .off else jogValve d
  else if old.contains j then .off else v

/-- An update of a running operation (R123). -/
def updateJacks (x : Ctx) (a : Asker) (k : JackAsk) (m : JackMotion) (u : Units) : Units :=
  let u := updJackMotion (fun m => { m with mode := k.mode, hold := holdSource x k.mode a.line, route := a.route })
    (clearMark .jacks u)
  if k.kind = .jog then
    let u := updJackMotion (fun m => { m with jogSet := k.set }) u
    if m.step = .jog then
      updImage u fun i => { i with
        jackValve := Vector.ofFn fun j => rejogValve x k.dir m.jogSet k.set j i.jackValve[j] }
    else u
  else u

/-- A jack operation request (R122, R123). -/
def jackRequest (x : Ctx) (a : Asker) (k : JackAsk) (gen : Option Generation) (u : Units) : Units × Reply :=
  if badJackAsk x k then (u, .badRequest, [])
  else match checkMotion x u a.who .jacks gen with
    | some r => (u, r)
    | none =>
      match jackInterlock x u k with
      | some b => (u, .interlock, [groupByte b])
      | none =>
        match u.jacks.motion with
        | some m => (updateJacks x a k m u, .ok, [])
        | none => if jackAlready x u k then (u, .ok, []) else (startJacks x a k u, .accepted, [])

/-- JACK_STOP (R133). -/
def jackStop (x : Ctx) (u : Units) : Units × Reply :=
  match checkPresent x [.jacks] with
  | some r => (u, r)
  | none => if u.jacks.motion.isNone then (u, .notMoving, []) else (stopMotion x .jacks .stopped u, .ok, [])

end Sys2Proof.Machine
end

