-- ==== Sys2Proof/Machine/RoomRequests.lean ====
section
/-! DEFINITION. ROOM_MOVE and ROOM_STOP (R98 to R100, R105, R107, R108, R113). -/
namespace Sys2Proof.Machine

/-- The group that blocks a room motion, the room first, then JACKS, then AWNING (R99). -/
def roomInterlock (x : Ctx) (u : Units) (n : Fin 6) (d : Direction) : Option Group :=
  if d = .outward && !x.roomValid n then some (.room n)
  else if u.jacks.state != .grounded && u.jacks.state != .levelled
      && (x.supportRequired n || u.jacks.state != .stowed) then some .jacks
  else if x.shadowed n && u.awning.state != .stowed then some .awning
  else none

/-- Whether a target fails the room sequencer's own check (R98). -/
def badTarget (x : Ctx) (n : Fin 6) (target : Option Int) : Bool :=
  match target with
  | some t => decide (x.roomStroke n < t) || decide (t ≤ x.roomPosition n)
  | none => false

/-- The record of a motion asked for (R97, R100). -/
def newRoomMotion (x : Ctx) (a : Asker) (d : Direction) (mode : Mode) (target : Option Int) : RoomMotion where
  requester := a.who
  dir := d
  mode := mode
  target := target
  hold := holdSource x mode a.line
  route := a.route
  step := .driveWait

/-- A new motion of a room with none (R100). -/
def startRoom (x : Ctx) (n : Fin 6) (a : Asker) (d : Direction) (mode : Mode) (target : Option Int) (u : Units) :
    Units :=
  beginSequence x n d
    (updRoom n (fun r => { r with motion := some (newRoomMotion x a d mode target) })
      (claimForMotion x a.who (.room n) u))

/-- An update of a running motion (R107); in PINNING the record takes direction IN and its pending result is cleared
(R105). -/
def updateRoom (x : Ctx) (n : Fin 6) (a : Asker) (d : Direction) (mode : Mode) (target : Option Int) (u : Units) :
    Units :=
  updRoomMotion n (fun m => { m with
      dir := d, mode := mode, target := target, hold := holdSource x mode a.line, route := a.route, pending := none })
    (clearMark (.room n) u)

/-- PIN n written OFF and given up. -/
def giveUpPin (x : Ctx) (n : Fin 6) (u : Units) : Units :=
  giveUp x [.pin n]
    (updRoomMotion n (fun m => { m with pinDeadline := none, lostPin := false }) (writePin n false u))

/-- What a reversal does by the step it finds (R108). A room that enters PINNING keeps no consumer, no turn and no place
in the manifold queue (R67, R105). -/
def reverseStep (x : Ctx) (n : Fin 6) (d : Direction) (st : RoomStep) (u : Units) : Units :=
  let dwell := some (after x.now Config.dwellMs)
  match st with
  | .drive =>
    giveUpPin x n (setRoomState n (drivingState d)
      (updRoomMotion n (fun m => { m with step := .dwell, dwellEnd := dwell }) (pauseDrive n u)))
  | .dwell => setRoomState n (drivingState d) u
  | .pause => giveUpPin x n (updRoomMotion n (fun m => { m with dwellEnd := dwell }) u)
  | .pinWait | .unpin => roomRelease x n (pinEngage x n none (writePin n false u))
  | .driveWait =>
    if x.roomIn n && x.locked n then
      match d with
      | .outward => pinWithdraw x n u
      | .inward => roomRelease x n (pinEngage x n none (writePin n false u))
    else driveRequest x n (giveUpPin x n u)
  | .pinEngage => pinWithdraw x n (updRoomMotion n (fun m => { m with pinDeadline := none }) u)

/-- A reversal (R108): the running motion ends SUPERSEDED and a new record takes its place. -/
def reverseRoom (x : Ctx) (n : Fin 6) (a : Asker) (d : Direction) (mode : Mode) (target : Option Int)
    (m : RoomMotion) (u : Units) : Units :=
  let u := motionDone x (.room n) m.requester m.route .superseded u
  let u := updRoomMotion n (fun m => { m with
    requester := a.who, dir := d, mode := mode, target := target, hold := holdSource x mode a.line, route := a.route
    pending := none, begun := false }) (clearMark (.room n) u)
  reverseStep x n d m.step u

/-- A ROOM_MOVE that passed every check, by the state of the room (R98). -/
def handleRoomMove (x : Ctx) (n : Fin 6) (a : Asker) (d : Direction) (mode : Mode) (target : Option Int) (u : Units) :
    Units × Reply :=
  match u.rooms[n].motion with
  | none =>
    if (d = .outward && u.rooms[n].state == .out) || (d = .inward && u.rooms[n].state == .stowed) then (u, .ok, [])
    else (startRoom x n a d mode target u, .accepted, [])
  | some m =>
    if (if m.step = .pinEngage then d = .inward else d = m.dir) then (updateRoom x n a d mode target u, .ok, [])
    else (reverseRoom x n a d mode target m u, .accepted, [])

/-- ROOM_MOVE (R98): the checks of R17 in order, the room's own check, then the handling. -/
def roomMove (x : Ctx) (a : Asker) (g : Group) (d : Direction) (mode : Mode) (target : Option Int)
    (gen : Option Generation) (u : Units) : Units × Reply :=
  match g with
  | .room n =>
    if target.isSome && (d = .inward || mode = .hold) then (u, .badRequest, [])
    else match checkMotion x u a.who g gen with
      | some r => (u, r)
      | none =>
        match roomInterlock x u n d with
        | some b => (u, .interlock, [groupByte b])
        | none =>
          if badTarget x n target then (u, .badRequest, []) else handleRoomMove x n a d mode target u
  | _ => (u, .badRequest, [])

/-- ROOM_STOP (R113). -/
def roomStop (x : Ctx) (g : Group) (u : Units) : Units × Reply :=
  match g with
  | .room n =>
    match checkPresent x [g] with
    | some r => (u, r)
    | none => if u.rooms[n].motion.isNone then (u, .notMoving, []) else (stopMotion x g .stopped u, .ok, [])
  | _ => (u, .badRequest, [])

end Sys2Proof.Machine
end

