-- ==== Sys2Proof/Machine/LineMap.lean ====
section
/-! DEFINITION. The line map unit (Chapter 9): entries, activity, deliveries, and what activations and deactivations
do. -/
namespace Sys2Proof.Machine

/-- What a request or a line may write: the setup part and the units; the measured part is read only. -/
structure Desk where
  c : Setup
  u : Units

/-- The context of a reaction at a desk. -/
def Desk.ctx (m : Measured) (d : Desk) : Ctx := { m := m, c := d.c }

/-- The entry of a line (R156). -/
def entryOf (c : Setup) : Line → MapEntry
  | .wired n => c.wired[n].map
  | .virtual n => c.virt[n].map

/-- The entry of a line written. -/
def withEntry (c : Setup) (l : Line) (e : MapEntry) : Setup :=
  match l with
  | .wired n => { c with wired := c.wired.set n { c.wired[n] with map := e } }
  | .virtual n => { c with virt := c.virt.set n { c.virt[n] with map := e } }

/-- Whether a level is active under a polarity (R156). -/
def levelActive (p : Polarity) (v : Level) : Bool :=
  match p, v with
  | .activeHigh, .high => true
  | .activeLow, .low => true
  | _, _ => false

/-- Whether a line is active (R156). -/
def lineActive (c : Setup) : Line → Bool
  | .wired n => levelActive c.wired[n].polarity c.wired[n].level
  | .virtual n => c.virt[n].value

/-- The group of a MOTION action (R156). -/
def actionGroup : MapAction → Option Group
  | .roomMotion n _ => some (.room n)
  | .jackMotion _ => some .jacks
  | .awningMotion _ => some .awning
  | _ => none

/-- Whether an action is MOTION with a STOP command. -/
def actionStops : MapAction → Bool
  | .roomMotion _ .stop | .jackMotion .stop | .awningMotion .stop => true
  | _ => false

/-- The request a MOTION entry delivers (R160). -/
def deliverAction (x : Ctx) (a : Asker) (mode : Mode) (k : MapAction) (u : Units) : Units × Reply :=
  match k with
  | .roomMotion n .extend => roomMove x a (.room n) .outward mode none none u
  | .roomMotion n .retract => roomMove x a (.room n) .inward mode none none u
  | .roomMotion n .stop => roomStop x (.room n) u
  | .jackMotion .auto => jackRequest x a { kind := .auto, mode := mode } none u
  | .jackMotion .retract => jackRequest x a { kind := .retract, mode := mode } none u
  | .jackMotion .stop => jackStop x u
  | .awningMotion .outward => awningMove x a .outward mode none none u
  | .awningMotion .inward => awningMove x a .inward mode none none u
  | .awningMotion .stop => awningStop x u
  | _ => (u, .ok, [])

/-- A delivery of a line, with LINE_REFUSED where it is refused (R160). -/
def deliver (x : Ctx) (l : Line) (e : MapEntry) (u : Units) : Units :=
  let level := e.trigger == .level
  let a : Asker := { who := .wl, line := if level then some l else none, route := e.route }
  let r := deliverAction x a (if level then .hold else .full) e.action u
  if r.2.1 = .ok || r.2.1 = .accepted then r.1
  else offerRoute x e.route (.lineRefused l r.2.1 r.2.2) r.1

/-- The pending mark of a line written. -/
def setPendingMark (l : Line) (b : Bool) (u : Units) : Units :=
  { u with pendingMarks := u.pendingMarks.set (lineIdx l) b }

/-- A LEVEL delivery if it is due: unmasked, and the in-service mark clear (R162); the mark is set with it. -/
def levelDelivery (m : Measured) (l : Line) (d : Desk) : Desk :=
  let e := entryOf d.c l
  if e.mask = .unmasked && !e.inService then
    { c := withEntry d.c l { e with inService := true }, u := deliver (d.ctx m) l e d.u }
  else d

/-- PARK written, with the advisory of a release while not travel-ready (R21, R165). -/
def setPark (m : Measured) (active : Bool) (d : Desk) : Desk :=
  let x := d.ctx m
  let u := if d.c.parkSet && !active && !travelReady x d.u then offerAll x (.advisory .parkReleasedDeployed) d.u
    else d.u
  { c := { d.c with parkSet := active }, u := u }

/-- IGN written, with the ignition mark and the advisory of its turning ON (R138, R150, R165). -/
def setIgn (m : Measured) (active : Bool) (d : Desk) : Desk :=
  let x := d.ctx m
  let rises := active && !d.c.ignOn
  let u := if rises && x.general 7 == 1 && x.awningPresent && d.u.awning.state != .stowed then
      updAwning (fun a => { a with ignitionMark := true }) d.u
    else d.u
  let u := if rises && u.jacks.state != .stowed then offerTo x .ml0 (.advisory (.jacksDownIgn u.jacks.state)) u else u
  { c := { d.c with ignOn := active }, u := u }

/-- An activation of a line, dealt with by its entry (R161, R162, R164, R165). -/
def activate (m : Measured) (l : Line) (d : Desk) : Desk :=
  let x := d.ctx m
  let e := entryOf d.c l
  match e.action with
  | .none => d
  | .notice => if e.mask = .unmasked then { d with u := offerRoute x e.route (.lineEvent l true) d.u } else d
  | .posture .park => setPark m true d
  | .posture .ign => setIgn m true d
  | .roomMotion .. | .jackMotion .. | .awningMotion .. =>
    if e.trigger = .level then levelDelivery m l d
    else if e.mask = .unmasked then { d with u := deliver x l e (setPendingMark l false d.u) }
    else { d with u := setPendingMark l true d.u }

/-- Whether a group's motion is a HOLD motion of WL held by a line (R163). -/
def heldByLine (u : Units) (g : Group) (l : Line) : Bool :=
  match g with
  | .room n => u.rooms[n].motion.any fun m => m.requester == .wl && m.hold == .line l
  | .jacks => u.jacks.motion.any fun m => m.requester == .wl && m.hold == .line l
  | .awning => u.awning.motion.any fun m => m.requester == .wl && m.hold == .line l

/-- The report of a deactivation at the sequencer of a group (R163). -/
def lineReleased (x : Ctx) (g : Group) (l : Line) (u : Units) : Units :=
  if heldByLine u g l then stopMotion x g .released u else u

/-- A deactivation of a line, dealt with by its entry (R161 to R165). -/
def deactivate (m : Measured) (l : Line) (d : Desk) : Desk :=
  let x := d.ctx m
  let e := entryOf d.c l
  match e.action with
  | .none => d
  | .notice =>
    if e.mask = .unmasked && e.trigger == .level then { d with u := offerRoute x e.route (.lineEvent l false) d.u }
    else d
  | .posture .park => setPark m false d
  | .posture .ign => setIgn m false d
  | .roomMotion .. | .jackMotion .. | .awningMotion .. =>
    if e.trigger = .level then
      { c := withEntry d.c l { e with inService := false }
        u := match actionGroup e.action with
          | some g => lineReleased x g l d.u
          | none => d.u }
    else d

/-- A wired line's debounced level takes a new value (R157). -/
def setLevel (m : Measured) (n : Fin 16) (v : Level) (d : Desk) : Desk :=
  let w := d.c.wired[n]
  let d := { d with c := { d.c with wired := d.c.wired.set n { w with level := v, timing := none } } }
  if levelActive w.polarity v then activate m (.wired n) d else deactivate m (.wired n) d

/-- A virtual line's value, writer and deadline written. -/
def writeVirtual (n : Fin 8) (value : Bool) (writer : Option Link) (deadline : Option CoachTime) (d : Desk) : Desk :=
  { d with c := { d.c with
      virt := d.c.virt.set n { d.c.virt[n] with value := value, writer := writer, deadline := deadline } } }

/-- A virtual line goes inactive (R158, R159). -/
def dropVirtual (m : Measured) (n : Fin 8) (d : Desk) : Desk :=
  deactivate m (.virtual n) (writeVirtual n false none none d)

/-- One value of a LINES_SET (R158). -/
def setVirtual (m : Measured) (l : Link) (n : Fin 8) (v : Bool) (d : Desk) : Desk :=
  let deadline := some (after m.now (d.ctx m).deadman)
  match d.c.virt[n].value, v with
  | false, true => activate m (.virtual n) (writeVirtual n true (some l) deadline d)
  | true, true => writeVirtual n true (some l) deadline d
  | true, false => dropVirtual m n d
  | false, false => d

/-- Every active virtual line of a writer goes inactive, in the order V0 to V7 (R159). -/
def silenceVirtual (m : Measured) (l : Link) (d : Desk) : Desk :=
  allVirtual.foldl (fun d n => if d.c.virt[n].value && d.c.virt[n].writer == some l then dropVirtual m n d else d) d

end Sys2Proof.Machine
end

