-- ==== Sys2Proof/Machine/ClaimRequests.lean ====
section
/-! DEFINITION. CLAIM and RELEASE (R25 to R27, R30), STOP_ALL (R32), HOLD_REFRESH (R195) and FAULT_CLEAR (R181). -/
namespace Sys2Proof.Machine

/-- Whether a group set is empty or names a group twice (R25). -/
def badGroupSet (gs : List Group) : Bool := gs.isEmpty || !decide gs.Nodup

/-- A dropped group of a CLAIM (R25): a TRANSIENT claim becomes EXPLICIT with the present stamp; a mark is cleared.
DESIGN CHOICE (log 62): the pending result of a room in PINNING stays. -/
def convertClaim (x : Ctx) (u : Units) (g : Group) : Units :=
  setClaim g ((claimOf u g).map fun c =>
    if c.kind = .transient then { c with kind := .explicit, stamp := x.now, mark := false }
    else { c with mark := false }) u

/-- Check 6 for a CLAIM on its remaining set (R26): none where it passes, for a grant or for a wait. -/
def checkClaim (u : Units) (l : Link) (rest : List Group) (wait : Bool) : Option Reply :=
  match blockingGroup u (.link l) rest with
  | none => none
  | some (g, c) =>
    if !wait then some (.heldBy, heldByBytes g c)
    else if Config.waitPerLink ≤ (u.waitList.filter fun e => e.link == l).length then some (.waitFull, [])
    else none

/-- A CLAIM that passed check 7 takes effect (R25 to R27). -/
def effectClaim (x : Ctx) (l : Link) (tag : Byte) (gs rest : List Group) (u : Units) : Units × Reply :=
  let u := (gs.filter fun g => !rest.contains g).foldl (convertClaim x) u
  if rest.isEmpty then (u, .ok, [])
  else if (blockingGroup u (.link l) rest).isNone then
    (absorbHeld x l rest (grantGroups x l rest u), .ok, stampBytes x.now)
  else
    let e : WaitEntry :=
      { link := l, tag := tag, missing := rest, asked := rest, arrival := x.now
        deadline := after x.now (x.timing 2 * 1000) }
    ({ u with waitList := u.waitList ++ [e] }, .accepted, [])

/-- CLAIM (R25, R26). -/
def claimRequest (x : Ctx) (l : Link) (tag : Byte) (gs : List Group) (wait : Bool) (gen : Option Generation)
    (u : Units) : Units × Reply :=
  if badGroupSet gs then (u, .badRequest, [])
  else match checkPresent x gs with
    | some r => (u, r)
    | none =>
      if !permit x u then (u, .permit, [])
      else
        let rest := allGroups.filter fun g => gs.contains g && holderOf u g != some (.link l)
        match checkClaim u l rest wait with
        | some r => (u, r)
        | none =>
          match checkGeneration u gen with
          | some r => (u, r)
          | none => effectClaim x l tag gs rest u

/-- RELEASE (R30). -/
def releaseRequest (x : Ctx) (l : Link) (gs : List Group) (u : Units) : Units × Reply :=
  if badGroupSet gs then (u, .badRequest, [])
  else match checkPresent x gs with
    | some r => (u, r)
    | none =>
      let held := heldBy u l (allGroups.filter fun g => gs.contains g)
      if held.isEmpty then (u, .notHeld, [])
      else (releaseAll x l .stopped held u, .ok, [groupSetByte (gs.filter fun g => !held.contains g)])

/-- STOP_ALL (R32, R113). -/
def stopAll (x : Ctx) (u : Units) : Units × Reply :=
  if !x.running then (u, .notConfigured, [])
  else (endAll x (movingGroups u) (fun u g => stopMotion x g .stopped u) u, .ok, [])

/-- Whether a group has a HOLD motion of a link (R195). -/
def holdsMotion (u : Units) (g : Group) (l : Link) : Bool :=
  match g with
  | .room n => u.rooms[n].motion.any fun m => m.requester == .link l && m.mode == .hold
  | .jacks => u.jacks.motion.any fun m => m.requester == .link l && m.mode == .hold
  | .awning => u.awning.motion.any fun m => m.requester == .link l && m.mode == .hold

/-- The hold source of a group's motion written. -/
def setHold (g : Group) (h : HoldSource) (u : Units) : Units :=
  match g with
  | .room n => updRoomMotion n (fun m => { m with hold := h }) u
  | .jacks => updJackMotion (fun m => { m with hold := h }) u
  | .awning => updAwning (fun a => { a with motion := a.motion.map fun m => { m with hold := h } }) u

/-- HOLD_REFRESH (R195). -/
def holdRefresh (x : Ctx) (l : Link) (g : Group) (u : Units) : Units × Reply :=
  match checkPresent x [g] with
  | some r => (u, r)
  | none =>
    if holdsMotion u g l then
      let t := after x.now x.deadman
      (setHold g (.deadline t) u, .ok, stampBytes t)
    else (u, .notMoving, [])

/-- The claim that keeps a link from clearing a subject: a present group held by another (R181). -/
def clearBlocked (x : Ctx) (u : Units) (l : Link) (s : Subject) : Option (Group × Claim) :=
  match s with
  | .group g => if x.present g then blockingGroup u (.link l) [g] else none
  | .coach => none

/-- Whether a subject is an absent group with an EMPTY record (R181). -/
def clearAbsent (x : Ctx) (u : Units) (s : Subject) : Bool :=
  match s with
  | .group g => !x.present g && (faultOf u s).state == .empty
  | .coach => false

/-- FAULT_CLEAR up to its being held, in which case there is no reply yet (R181, R182). -/
def faultClear (x : Ctx) (l : Link) (tag : Byte) (s : Subject) (u : Units) : Units × Option Reply :=
  if !x.running then (u, some (.notConfigured, []))
  else if clearAbsent x u s then (u, some (.absent, [subjectByte s]))
  else match clearBlocked x u l s with
    | some (g, c) => (u, some (.heldBy, heldByBytes g c))
    | none =>
      match (faultOf u s).state with
      | .empty => (u, some (.notFaulted, []))
      | .active => (u, some (.stillActive, []))
      | .clearable => ({ u with heldClears := u.heldClears ++ [{ link := l, tag := tag, subject := s }] }, none)

/-- FAULT_GET (R180): one record, or all nine in the table order. -/
def faultGet (u : Units) (s : Option Subject) : Reply :=
  match s with
  | some s => (.ok, faultRecordBytes (faultOf u s))
  | none => (.ok, allSubjects.flatMap fun s => faultRecordBytes (faultOf u s))

end Sys2Proof.Machine
end

