-- ==== Sys2Proof/Machine/SetupRequests.lean ====
section
/-! DEFINITION. The requests that write the setup part: the profile (R4 to R8), the lines (R158, R166 to R168), and
the port's own (R193, R196). -/
namespace Sys2Proof.Machine

/-! ## Profile -/

/-- Whether the staging area is another link's (R4, R5, R7). -/
def stagingOther (c : Setup) (l : Link) : Bool := c.owner.any fun o => o != l

/-- Whether a profile request is refused LOCKED (R4, R5, R7). -/
def profileLocked (c : Setup) (l : Link) : Bool := c.phase == .run || stagingOther c l

/-- The staging ownership ends and the staging area returns to its initial contents (R3, R5). -/
def endStaging (m : Measured) (c : Setup) : Setup := { c with owner := none, staging := initialSlots m.straps }

/-- PROFILE_STAGE (R4); one with no entry is shorter than its parameters (R191). -/
def profileStage (m : Measured) (l : Link) (sec : Section) (es : List (Nat × Int)) (c : Setup) : Setup × Reply :=
  if es.isEmpty then (c, .badRequest, [])
  else if profileLocked c l then (c, .locked, [])
  else if !stageListOk sec es then (c, .badRequest, [])
  else ({ c with staging := c.staging.stage m.straps sec es, owner := some l }, .ok, [])

/-- PROFILE_ABANDON (R5). -/
def profileAbandon (m : Measured) (l : Link) (c : Setup) : Setup × Reply :=
  if profileLocked c l then (c, .locked, [])
  else if c.owner = some l then (endStaging m c, .ok, [])
  else (c, .ok, [])

/-- The slots PROFILE_GET returns (R6). -/
def profileGet (c : Setup) (sec : Section) : Reply :=
  (.ok, sectionBytes ((c.profile.getD c.staging).sectionSlots sec))

/-- A chassis entry as the commit installs it (R165). -/
def chassisLine (w : WiredLine) (i : ChassisInput) (polarity : Int) : WiredLine :=
  { w with
    polarity := if polarity = 0 then .activeHigh else .activeLow
    debounce := 30
    map := { w.map with trigger := .level, mask := .unmasked, action := .posture i } }

/-- A LINES field as a line number (R13). -/
def lineField (p : Slots) (i : Nat) : Fin 16 := ⟨p.nat .lines i % 16, Nat.mod_lt _ (by omega)⟩

/-- The setup part after a successful commit (R8, R15, R165). -/
def committedSetup (c : Setup) : Setup :=
  let p := c.staging.committed
  let park := lineField p 0
  let ign := lineField p 2
  let wired := c.wired.set park (chassisLine c.wired[park] .park (p.int .lines 1))
  let wired := wired.set ign (chassisLine wired[ign] .ign (p.int .lines 3))
  { c with
    phase := .run, owner := none, profile := some p, wired := wired
    parkSet := levelActive wired[park].polarity wired[park].level
    ignOn := levelActive wired[ign].polarity wired[ign].level }

/-- Each present group takes its settled state, or FAULT where its record survived an XRST (R8, R178). -/
def commitGroups (x : Ctx) (u : Units) : Units :=
  let faulted := fun g => faultFlag u (.group g)
  { u with
    rooms := Vector.ofFn fun n => if x.roomPresent n then
        { u.rooms[n] with state := if faulted (.room n) then .fault else x.roomSettled n }
      else u.rooms[n]
    jacks := { u.jacks with state := if faulted .jacks then .fault else x.jacksSettled }
    awning := if x.awningPresent then
        { u.awning with state := if faulted .awning then .fault else x.awningSettled }
      else u.awning }

/-- The first channel of a group whose trip flag the last echo shows (R178). -/
def groupTrip (x : Ctx) (g : Group) : Option (Fin 33) :=
  x.m.lastEcho.bind fun e => allChannels.find? fun k => e.trips.contains k && channelOwner k == some g

/-- The trips found in CONFIG, raised at the commit (R178). -/
def commitTrips (x : Ctx) (u : Units) : Units :=
  (allGroups.filter x.present).foldl (fun u g =>
    match groupTrip x g with
    | some k => raiseGroup x g .trip (.channel k) u
    | none => u) u

/-- PROFILE_COMMIT (R7, R8). -/
def profileCommit (m : Measured) (l : Link) (d : Desk) : Desk × Reply :=
  if profileLocked d.c l then (d, .locked, [])
  else match firstOffence m.straps d.c.staging with
    | some (sec, i, why) =>
      ({ d with c := if d.c.owner = some l then endStaging m d.c else d.c },
        .badProfile, [byte (sectionNumber sec), byte i, byte why.ctorIdx])
    | none =>
      let c := committedSetup d.c
      let x : Ctx := { m := m, c := c }
      ({ c := c, u := commitTrips x (commitGroups x d.u) }, .ok, [])

/-! ## Lines -/

/-- Whether a LINES_SET selection is refused BAD_REQUEST (R158). -/
def badSelection (sel : List (Line × Bool)) : Bool :=
  sel.isEmpty || !decide (sel.map Prod.fst).Nodup
    || sel.any fun e => match e.1 with | .wired _ => true | .virtual _ => false

/-- LINES_SET (R158); one with no entry is shorter, one with more than eight longer than its parameters (R191). -/
def linesSet (m : Measured) (l : Link) (sel : List (Line × Bool)) (d : Desk) : Desk × Reply :=
  if sel.isEmpty || decide (8 < sel.length) then (d, .badRequest, [])
  else if d.c.phase = .config then (d, .notConfigured, [])
  else if badSelection sel then (d, .badRequest, [])
  else
    (allVirtual.foldl (fun d n =>
      match sel.find? fun e => e.1 == .virtual n with
      | some (_, v) => setVirtual m l n v d
      | none => d) d, .ok, [])

/-- The index of a MAP_WRITE field (R191). -/
def fieldIndex : MapField → Nat
  | .polarity _ => 0
  | .debounce _ => 1
  | .trigger _ => 2
  | .mask _ => 3
  | .action _ => 4
  | .route _ => 5

/-- One field written in an entry (R166); polarity and debounce stand outside it. -/
def writeEntryField (e : MapEntry) : MapField → MapEntry
  | .trigger v => { e with trigger := v }
  | .mask v => { e with mask := v }
  | .action v => { e with action := v }
  | .route v => { e with route := v }
  | .polarity _ | .debounce _ => e

/-- One field written in a wired line. -/
def writeWiredField (w : WiredLine) : MapField → WiredLine
  | .polarity v => { w with polarity := v }
  | .debounce v => { w with debounce := v }
  | _ => w

/-- Whether a field's value or its line makes a MAP_WRITE a BAD_REQUEST (R156, R166). -/
def badField (l : Line) : MapField → Bool
  | .polarity _ => match l with | .virtual _ => true | .wired _ => false
  | .debounce v => match l with | .virtual _ => true | .wired _ => decide (v < 10 ∨ 200 < v)
  | .action (.posture _) => match l with | .virtual _ => true | .wired _ => false
  | _ => false

/-- Whether an action is POSTURE. -/
def isPosture : MapAction → Bool
  | .posture _ => true
  | _ => false

/-- The decision of a MAP_WRITE, none where it is not refused (R166); one with no field is shorter than its parameters
(R191). -/
def checkMapWrite (m : Measured) (l : Line) (fs : List MapField) (d : Desk) : Option Reply :=
  let x := d.ctx m
  let e := entryOf d.c l
  let e' := fs.foldl writeEntryField e
  let absent := (actionGroup e'.action).filter fun g => !x.present g
  if fs.isEmpty then some (.badRequest, [])
  else if d.c.phase = .config then some (.notConfigured, [])
  else if !decide (fs.map fieldIndex).Nodup || fs.any (badField l)
      || (actionStops e'.action && e'.trigger == .level) then some (.badRequest, [])
  else if isPosture e.action || isPosture e'.action then some (.locked, [])
  else match absent with
    | some g => some (.absent, [groupByte g])
    | none => if e.inService then some (.entryBusy, []) else none

/-- The fields of a MAP_WRITE written. -/
def writeMap (l : Line) (fs : List MapField) (c : Setup) : Setup :=
  let c := match l with
    | .wired n => { c with wired := c.wired.set n (fs.foldl writeWiredField c.wired[n]) }
    | .virtual _ => c
  withEntry c l (fs.foldl writeEntryField (entryOf c l))

/-- A change being timed whose debounce time has already passed takes effect in the write (R157). DESIGN CHOICE (log 66):
also where the write gives no debounce. -/
def applyDebounce (m : Measured) (l : Line) (d : Desk) : Desk :=
  match l with
  | .virtual _ => d
  | .wired n =>
    match d.c.wired[n].timing with
    | none => d
    | some t =>
      if elapsed t m.now d.c.wired[n].debounce then
        setLevel m n (match d.c.wired[n].level with | .high => .low | .low => .high) d
      else d

/-- Whether a field is other than the mask (R167). -/
def notMask (f : MapField) : Bool := fieldIndex f != 3

/-- MAP_WRITE (R166, R167). -/
def mapWrite (m : Measured) (l : Line) (fs : List MapField) (d : Desk) : Desk × Reply :=
  match checkMapWrite m l fs d with
  | some r => (d, r)
  | none =>
    let waiting := d.u.pendingMarks[lineIdx l]
    let discard := waiting && fs.any notMask
    let d : Desk := { c := writeMap l fs d.c, u := if discard then setPendingMark l false d.u else d.u }
    let e := entryOf d.c l
    let moves := (actionGroup e.action).isSome
    let d := if waiting && !discard && e.mask = .unmasked && moves then
        { d with u := deliver (d.ctx m) l e (setPendingMark l false d.u) }
      else d
    let d := if e.trigger = .level && moves && lineActive d.c l then levelDelivery m l d else d
    (applyDebounce m l d, .ok, [if discard then 1 else 0])

/-- The remaining time of a virtual line in whole ms, 0 for an inactive line (R168). -/
def remainingLine (now : CoachTime) (v : VirtualLine) : Nat :=
  match v.deadline with
  | some t => if reached t now then 0 else (t - now).toNat
  | none => 0

/-- MAP_READ (R168). -/
def mapRead (m : Measured) (d : Desk) (l : Line) : Reply :=
  let e := entryOf d.c l
  let common := [byte e.trigger.ctorIdx, byte e.mask.ctorIdx] ++ actionBytes e.action ++ [routeByte e.route]
  let marks := [flagByte d.u.pendingMarks[lineIdx l], flagByte e.inService]
  match l with
  | .wired n =>
    let w := d.c.wired[n]
    (.ok, byte w.polarity.ctorIdx :: u16 w.debounce ++ common
      ++ [byte w.level.ctorIdx, flagByte (lineActive d.c l)] ++ marks)
  | .virtual n =>
    let v := d.c.virt[n]
    (.ok, common ++ [flagByte v.value, holderByte (v.writer.map .link)] ++ u16 (remainingLine m.now v) ++ marks)

/-! ## The port's own requests -/

/-- The setup part with one port changed. -/
def updPort (c : Setup) (l : Link) (f : PortIn → PortIn) : Setup :=
  { c with ports := c.ports.set (linkIdx l) (f c.ports[linkIdx l]) }

/-- PING (R196). -/
def pingReply (x : Ctx) (u : Units) : Reply :=
  (.ok, stampBytes x.now ++ [byte x.c.phase.ctorIdx] ++ stampBytes u.generation)

/-- LINK_STATUS (R196): the answer, with the tallies as they stand. DESIGN CHOICE (log 8): each tally is two bytes
unsigned. -/
def linkStatusReply (c : Setup) (u : Units) (l : Link) : Reply :=
  let p := c.ports[linkIdx l]
  let o := u.out[linkIdx l]
  let t := p.tallies
  (.ok, [flagByte p.linked, if p.attention then 1 else 0, byte p.level]
    ++ u16 t.crc ++ u16 t.length ++ u16 t.framing ++ u16 t.overrun ++ u16 t.truncated
    ++ [byte p.rx.length, byte o.notices.length, flagByte o.lostFlag, byte o.lostCount])

/-- The five tallies of a port return to 0 (R196). -/
def clearTallies (l : Link) (c : Setup) : Setup := updPort c l fun p => { p with tallies := {} }

/-- ATTENTION_SET (R193). -/
def attentionSet (l : Link) (level : Nat) (c : Setup) : Setup × Reply :=
  if level ≤ 15 then (updPort c l fun p => { p with attention := true, level := level }, .ok, [])
  else (c, .badRequest, [])

/-! ## The decision of any request (R189) -/

/-- A frame of the right length whose section, line, value or subject names nothing (log 31): BAD_REQUEST at the place
the rule of its kind gives that refusal (R4, R166, R181). -/
def unnamedReply (c : Setup) (l : Link) (kind : Byte) : Reply :=
  if kind = 3 ∧ profileLocked c l then (.locked, [])
  else if (kind = 23 ∨ kind = 26) ∧ c.phase = .config then (.notConfigured, [])
  else (.badRequest, [])

/-- A reply that leaves the setup part as it was. -/
def atUnits (c : Setup) (r : Units × Reply) : Desk × Option Reply := ({ c := c, u := r.1 }, some r.2)

/-- A reply that leaves the units as they were. -/
def atSetup (u : Units) (r : Setup × Reply) : Desk × Option Reply := ({ c := r.1, u := u }, some r.2)

/-- A request taken from a receive queue, decided by the unit that owns the matter (R189); no reply for a FAULT_CLEAR
that is held. -/
def decideRequest (m : Measured) (l : Link) (tag : Byte) (q : Request) (d : Desk) : Desk × Option Reply :=
  let x := d.ctx m
  let a := linkAsker l
  match q with
  | .ping => (d, some (pingReply x d.u))
  | .linkStatus => ({ d with c := clearTallies l d.c }, some (linkStatusReply d.c d.u l))
  | .profileStage sec es => atSetup d.u (profileStage m l sec es d.c)
  | .profileCommit => let r := profileCommit m l d; (r.1, some r.2)
  | .profileAbandon => atSetup d.u (profileAbandon m l d.c)
  | .profileGet sec => (d, some (profileGet d.c sec))
  | .postureGet => (d, some (.ok, postureBytes x d.u))
  | .claim gs w gen => atUnits d.c (claimRequest x l tag gs w gen d.u)
  | .release gs => atUnits d.c (releaseRequest x l gs d.u)
  | .roomMove g dir mode t gen => atUnits d.c (roomMove x a g dir mode t gen d.u)
  | .roomStop g => atUnits d.c (roomStop x g d.u)
  | .jackAuto mode gen => atUnits d.c (jackRequest x a { kind := .auto, mode := mode } gen d.u)
  | .jackSeek mode gen => atUnits d.c (jackRequest x a { kind := .seek, mode := mode } gen d.u)
  | .jackJog js dir mode gen =>
    atUnits d.c (jackRequest x a { kind := .jog, mode := mode, set := js, dir := dir } gen d.u)
  | .jackRetract mode gen => atUnits d.c (jackRequest x a { kind := .retract, mode := mode } gen d.u)
  | .jackStop => atUnits d.c (jackStop x d.u)
  | .awningMove dir mode p gen => atUnits d.c (awningMove x a dir mode p gen d.u)
  | .awningStop => atUnits d.c (awningStop x d.u)
  | .stopAll => atUnits d.c (stopAll x d.u)
  | .holdRefresh g => atUnits d.c (holdRefresh x l g d.u)
  | .attentionSet v => atSetup d.u (attentionSet l v d.c)
  | .linesSet sel => let r := linesSet m l sel d; (r.1, some r.2)
  | .mapWrite line fs => let r := mapWrite m line fs d; (r.1, some r.2)
  | .mapRead line => (d, some (mapRead m d line))
  | .faultGet s => (d, some (faultGet d.u s))
  | .faultClear s => let r := faultClear x l tag s d.u; ({ d with u := r.1 }, r.2)
  | .malformed _ => (d, some (.badRequest, []))
  | .unnamed k => (d, some (unnamedReply d.c l k))

end Sys2Proof.Machine
end

