-- ==== Sys2Proof/Machine/Settle.lean ====
section
/-! DEFINITION. The settlement of an event (log 30): what the units do in the same event to what a command or a request
changed: steps whose end condition holds, the permit's fall, the conditions judged in every event, an internal
retract, the claim unit's tests and walk, the generation, and the frame an image change starts. -/
namespace Sys2Proof.Machine

/-! ## Steps whose end condition holds -/

/-- Whether no in-use end of a room is driven. -/
def nothingDriven (x : Ctx) (n : Fin 6) (u : Units) : Bool :=
  if x.electric n then (x.ends n).all fun e => (imageMotor u.image n e).dir == .none
  else u.image.roomValve[n] == .off

/-- Whether a room's drive step is over (R103, R104). -/
def driveStepOver (x : Ctx) (n : Fin 6) (m : RoomMotion) (u : Units) : Bool :=
  m.step == .drive && m.pinDeadline.isNone &&
    match m.dir with
    | .outward => nothingDriven x n u
    | .inward => x.roomIn n

/-- The end of a room's drive step (R103, R104). -/
def endDriveStep (x : Ctx) (n : Fin 6) (m : RoomMotion) (u : Units) : Units :=
  match m.dir with
  | .outward =>
    endRoom x n .completed (if endPosition x n m = x.roomStroke n then .out else .partway) u
  | .inward =>
    if !x.locked n || x.lockState n == .engaged then endRoom x n .completed .stowed u
    else roomRelease x n (pinEngage x n none (roomOutputsOff n u))

/-- What is due at room n, if anything: a withdrawn pin, an engaged pin, the end of a drive step. -/
def roomDue (x : Ctx) (n : Fin 6) (u : Units) : Option Units :=
  match u.rooms[n].motion with
  | none => none
  | some m =>
    if m.step = .pinEngage then
      if x.lockState n = .engaged then some (endRoom x n (m.pending.getD .completed) .stowed u) else none
    else if m.pinDeadline.isSome && x.lockState n == .withdrawn then some (pinWithdrawn x n u)
    else if driveStepOver x n m u then some (endDriveStep x n m u)
    else none

/-- Jacks at their limit closed (R131, R132). -/
def closeAtLimit (x : Ctx) (u : Units) : Units :=
  updImage u fun i => { i with jackValve := Vector.ofFn fun j =>
    match i.jackValve[j] with
    | .down => if x.jackAtLimit .down j then .off else .down
    | .up => if x.jackAtLimit .up j then .off else .up
    | .off => .off }

/-- The valve a jack has in a SEEK or RESEEK step (R124, R130): DOWN while it is not in CONTACT. -/
def seekValve (x : Ctx) (j : Fin 6) : JackValve := if x.jackPresent j && !x.contact j then .down else .off

/-- The image with the valves of a SEEK or RESEEK step. -/
def seekImage (x : Ctx) (i : Image) : Image := { i with jackValve := Vector.ofFn (seekValve x) }

/-- The units if a change made one differ, none otherwise. -/
def ifChanged (u v : Units) : Option Units := if v.image = u.image then none else some v

/-- What is due at the jack set, if anything (R124, R127 to R132). -/
def jacksDue (x : Ctx) (u : Units) : Option Units :=
  match u.jacks.motion with
  | none => none
  | some m =>
    match m.step with
    | .seek =>
      if x.allContact then
        some (if m.kind = .auto then beginSettle x u else endJacks x .completed .grounded u)
      else ifChanged u (updImage u (seekImage x))
    | .reseek =>
      if x.allContact then
        some (if m.unreachable then endJacks x .unreachable .grounded u else beginSettle x u)
      else ifChanged u (updImage u (seekImage x))
    | .lift =>
      if m.lifted.any (x.jackAtLimit .down) then
        some (beginReseek x (updJackMotion (fun m => { m with unreachable := true }) u))
      else none
    | .jog =>
      if m.jogSet.all (x.jackAtLimit m.jogDir) then some (endJacks x .completed x.jacksSettled u)
      else ifChanged u (closeAtLimit x u)
    | .retract =>
      if x.jacksStowed then some (endJacks x .completed .stowed u) else ifChanged u (closeAtLimit x u)
    | .turnWait | .settle | .pause => none

/-- What is due at the awning, if anything (R145, R152). -/
def awningDue (x : Ctx) (u : Units) : Option Units :=
  match u.awning.retract, u.awning.motion with
  | some _, _ => if x.m.awningStowed then some (endRetract x true .stowed u) else none
  | none, some m =>
    if m.step = .drive && u.image.awningMotor.dir == .none then
      some (endAwning x .completed (match m.dir with | .outward => .out | .inward => .stowed) u)
    else none
  | none, none => none

/-- What is due at the sequencers: rooms first, then the jacks, then the awning. -/
def stepDue (x : Ctx) (u : Units) : Option Units :=
  match allRooms.findSome? fun n => roomDue x n u with
  | some v => some v
  | none =>
    match jacksDue x u with
    | some v => some v
    | none => awningDue x u

/-- Everything due at the sequencers done, one after another; `fuel` bounds the chain of one event. -/
def settleSteps (x : Ctx) : Nat → Units → Units
  | 0, u => u
  | fuel + 1, u =>
    match stepDue x u with
    | some v => settleSteps x fuel v
    | none => u

/-- Steps one event can end: each of eight groups passes at most a few. -/
def settleFuel : Nat := 40

/-! ## Conditions judged in every event -/

/-- ROAD_MOTION (R172): road speed at or above 2 km/h while travel-ready is no, from the commit on (log 49). -/
def judgeRoad (x : Ctx) (u : Units) : Units :=
  trackCondition x .coach .roadMotion (.value x.m.roadSpeed)
    (x.running && decide (2 ≤ x.m.roadSpeed) && !travelReady x u) u

/-- The effects of a fall of the motion permit (R20, R169). -/
def permitFall (x : Ctx) (u : Units) : Units :=
  { emptyWaitList x (abortAll x .abortedPermit u) with pendingMarks := Vector.replicate 24 false }

/-- A present room left STOWED while a retract of the jacks runs: it ends STOPPED (R132). -/
def stopRetract (x : Ctx) (u0 u : Units) : Units :=
  if u.jacks.motion.any (fun m => m.kind == .retract)
      && x.presentRooms.any (fun n => u0.rooms[n].state == .stowed && u.rooms[n].state != .stowed) then
    endJacks x .stopped x.jacksSettled u
  else u

/-- A STOWED awning takes its settled state when the last active shadowed room leaves its active states (R142). -/
def followAwning (x0 : Ctx) (u0 : Units) (x : Ctx) (u : Units) : Units :=
  if !(activeShadowed x0 u0).isEmpty && (activeShadowed x u).isEmpty && u.awning.state == .stowed then
    updAwning (fun a => { a with state := x.awningSettled }) u
  else u

/-- The ignition mark cleared with the awning STOWED (R150), and the drift measurement with the set not LEVELLED
(R137). -/
def clearMarks (x : Ctx) (u : Units) : Units :=
  let u := if x.awningPresent && u.awning.state == .stowed then
      updAwning (fun a => { a with ignitionMark := false }) u
    else u
  if u.jacks.state = .levelled then u else updJacks (fun k => { k with drift := none }) u

/-! ## Internal retracts (R151) -/

/-- The states in which no internal retract starts. -/
def retractBarred : AwningState → Bool
  | .stowed | .fault | .windRetract | .ignRetract => true
  | _ => false

/-- The retract record by where the awning stood (R151). -/
def retractRecord (x : Ctx) (cause : RetractCause) (u : Units) : Retract :=
  match u.awning.motion with
  | none => { cause := cause, step := .admitWait, dwellEnd := none }
  | some m =>
    match m.step, m.dir with
    | .drive, .outward => { cause := cause, step := .dwell, dwellEnd := some (after x.now Config.dwellMs) }
    | .drive, .inward => { cause := cause, step := .drive, dwellEnd := none }
    | .dwell, _ => { cause := cause, step := .dwell, dwellEnd := m.dwellEnd }
    | .admitWait, _ => { cause := cause, step := .admitWait, dwellEnd := none }

/-- An owner's motion overtaken by a retract (R151): it ends ABORTED_WIND and its consumer passes on. -/
def overtakeOwner (x : Ctx) (u : Units) : Units :=
  match u.awning.motion with
  | none => u
  | some m =>
    claimMotionLeft .awning (updAwning (fun a => { a with motion := none })
      (motionDone x .awning m.requester m.route .abortedWind u))

/-- An internal retract starts (R151). -/
def startRetract (x : Ctx) (u : Units) : Units :=
  let cause := if x.m.wind.hold then RetractCause.wind else .ignition
  let r := retractRecord x cause u
  let u := updAwning (fun a => { a with
      retract := some r, state := if x.m.wind.hold then .windRetract else .ignRetract })
    (overtakeOwner x u)
  let u := offerHolder x .awning (.windNotice .retractStarted (some cause)) u
  match r.step with
  | .drive => u
  | .dwell => writeAwningMotor { u.image.awningMotor with duty := 0 } u
  | .admitWait =>
    if x.m.awningStowed then u
    else
      let r := budgetAsk x .awning u
      if r.2 then startAwning x r.1 else r.1

/-- An ignition retract passes to the wind (R151). -/
def passToWind (x : Ctx) (u : Units) : Units :=
  offerHolder x .awning (.windNotice .retractStarted (some .wind))
    (updAwning (fun a => { a with
      state := .windRetract, retract := a.retract.map fun r => { r with cause := .wind } }) u)

/-- Whether an internal retract starts (R151). -/
def retractStarts (x : Ctx) (u : Units) : Bool :=
  x.awningPresent && !retractBarred u.awning.state && (x.m.wind.hold || u.awning.ignitionMark) && retractPermit x u

/-- The awning's internal retract at the end of an event. -/
def judgeRetract (x : Ctx) (u : Units) : Units :=
  if retractStarts x u then startRetract x u
  else if u.awning.state = .ignRetract && x.m.wind.hold then passToWind x u
  else u

/-! ## Generation, drive stamps, frames -/

/-- The generation advances by one where the posture record changed, and POSTURE_CHANGED is offered (R16, R18). DESIGN
CHOICE (log 73): the record at the event's two ends is compared, so a field that changes within an event and returns to
its old value does not advance the generation. -/
def advance (x0 : Ctx) (u0 : Units) (x : Ctx) (u : Units) : Units :=
  if postureView x0 u0 = postureView x u then u
  else offerAll x .postureChanged { u with generation := u.generation + 1 }

/-- The drive-on stamps: the moment a drive changed from off to on, none while it is off (R92). DESIGN CHOICE (log 56):
the event's two ends are compared, so a drive written off and on again in one event keeps its stamp. -/
def stampDrives (x : Ctx) (u : Units) : Units :=
  { u with driveOn := Vector.ofFn fun i =>
      match allAxes[i.val]? with
      | some a => if driveIsOn x u a then some (u.driveOn[i].getD x.now) else none
      | none => none }

/-- A frame starts: the image with its duties shaped for this moment, every drive output off while CHAIN_EN is low
(R78, R79, R88). -/
def startFrame (x : Ctx) (u : Units) : Units :=
  let i := reshapeAll x u
  let f : Flight :=
    { frame := if u.chainEn then i else imageDriveOff i, start := x.now, confirms := Vector.replicate 9 true }
  { u with image := i, flight := some f, frameStart := x.now, changePending := false }

/-- What an event's image change does at the driver chain (R77, R78): it starts a frame, or waits for the flight's
end. DESIGN CHOICE (log 69): the image at the event's two ends is compared, so writes of one event that cancel out are
no image change. -/
def chainChange (x : Ctx) (u0 : Units) (frameDue : Bool) (u : Units) : Units :=
  let change := u.image != u0.image || (u.chainEn && !u0.chainEn)
  if u.flight.isNone then
    if change || u.changePending || frameDue then startFrame x u else u
  else if change then { u with changePending := true }
  else u

/-! ## The settlement as a whole -/

/-- CHAIN_EN is low while the COACH record is ACTIVE (R83): an echo raises it only in an event that leaves the record
not ACTIVE (R179). -/
def holdChainLow (u : Units) : Units := if coachActive u then { u with chainEn := false } else u

/-- What the sequencers and the posture unit do before the claim unit (log 30). -/
def settleUnits (x0 : Ctx) (u0 : Units) (x : Ctx) (u : Units) : Units :=
  let u := settleSteps x settleFuel u
  let u := judgeRoad x u
  let u := if permit x0 u0 && !permit x u then permitFall x u else u
  let u := stopRetract x u0 u
  let u := followAwning x0 u0 x u
  let u := judgeRoad x u
  let u := holdChainLow (settleRecords (clearMarks x u))
  clearMarks x (settleSteps x settleFuel (judgeRetract x u))

/-- The settlement of an event that found context `x0` and units `u0` and left `x` and `u`. -/
def finish (x0 : Ctx) (u0 : Units) (frameDue : Bool) (x : Ctx) (u : Units) : Units :=
  let u := settleClaims x u0 (settleUnits x0 u0 x u)
  chainChange x u0 frameDue (stampDrives x (advance x0 u0 x u))

end Sys2Proof.Machine
end

