-- ==== Sys2Proof/Machine/Serve.lean ====
section
/-! DEFINITION. The ports in an event: requests taken (R189), frames started (R190), and the event as a whole. -/
namespace Sys2Proof.Machine

/-- Whether a port takes the head of its receive queue (R189). -/
def takes (d : Desk) (l : Link) : Bool :=
  !(d.c.ports[linkIdx l]).rx.isEmpty && (d.u.out[linkIdx l]).line.isEmpty
    && decide ((d.u.heldClears.filter fun h => h.link == l).length < Config.heldMax)

/-- A request decided as an event of its own (log 5), its response joining the response line. -/
def decideTaken (m : Measured) (l : Link) (q : QueuedRequest) (d : Desk) : Desk :=
  let r := decideRequest m l q.tag q.req d
  let u := match r.2 with
    | some reply => respond l (requestKind q.req) q.tag reply.1 reply.2 r.1.u
    | none => r.1.u
  { c := r.1.c, u := finish (d.ctx m) d.u false (r.1.ctx m) u }

/-- The port takes the head of its receive queue and hands it to the owning unit (R189). -/
def takeHead (m : Measured) (l : Link) (d : Desk) : Desk :=
  match (d.c.ports[linkIdx l]).rx with
  | [] => d
  | q :: rest => decideTaken m l q { d with c := updPort d.c l fun p => { p with rx := rest } }

/-- The transmitter takes up a frame. -/
def beginSending (l : Link) (frame : List Byte) (c : Setup) : Setup := updPort c l fun p => { p with sending := some frame }

/-- The response line after the next segment of its oldest response was taken (R190). -/
def lineAfterSegment (r : Response) (rest : List Response) : List Response :=
  if r.next + 1 < segmentCount r then { r with next := r.next + 1 } :: rest else rest

/-- The outgoing part after its oldest notice left to be sent: NOTICES_LOST takes the freed place if the lost flag is
set (R192). -/
def afterDeparture (now : CoachTime) (rest : List Notice) (p : PortOut) : PortOut :=
  if p.lostFlag then
    { p with notices := rest ++ [{ stamp := now, body := .noticesLost p.lostCount }], lostFlag := false, lostCount := 0 }
  else { p with notices := rest }

/-- A free transmitter starts a frame while there is something to send: a response before a notice (R190). -/
def transmit (m : Measured) (l : Link) (d : Desk) : Desk :=
  if (d.c.ports[linkIdx l]).sending.isSome then d
  else match (d.u.out[linkIdx l]).line, (d.u.out[linkIdx l]).notices with
    | r :: rest, _ =>
      { c := beginSending l (segmentFrame r) d.c
        u := updOut d.u l fun p => { p with line := lineAfterSegment r rest } }
    | [], n :: rest =>
      { c := beginSending l (noticeFrame m.now d.u.generation n) d.c
        u := updOut d.u l (afterDeparture m.now rest) }
    | [], [] => d

/-- One port served once: the head of its queue taken if it may be, then a frame started if the transmitter is free
(log 10). -/
def servePort (m : Measured) (d : Desk) (l : Link) : Desk :=
  transmit m l (if takes d l then takeHead m l d else d)

/-- Rounds over the three ports, ML0 first. -/
def serveRounds (m : Measured) : Nat → Desk → Desk
  | 0, d => d
  | fuel + 1, d => serveRounds m fuel (allLinks.foldl (servePort m) d)

/-- The requests that stand in the three receive queues. -/
def requestsWaiting (c : Setup) : Nat := (allLinks.map fun l => (c.ports[linkIdx l]).rx.length).sum

/-- The ports served at the end of an event (R189, R190): rounds until nothing can be taken (every second round at the
latest takes a request), then every transmitter that is still free starts what is left to send. -/
def servePorts (m : Measured) (d : Desk) : Desk :=
  allLinks.foldl (fun d l => transmit m l d) (serveRounds m (2 * requestsWaiting d.c + 1) d)

/-! ## Events -/

/-- The desk of a state. -/
def State.desk (s : State) : Desk := { c := s.c, u := s.u }

/-- The context of a state. -/
def State.ctx (s : State) : Ctx := { m := s.m, c := s.c }

/-- An event: the measured part and the desk as the command leaves them, settled, and the ports served. -/
def settleEvent (s : State) (m : Measured) (d : Desk) (frameDue : Bool) : State :=
  let x := d.ctx m
  let d := servePorts m { c := d.c, u := finish s.ctx s.u frameDue x d.u }
  { s with m := m, c := d.c, u := d.u }

/-- An event at the units alone: the command changed the measured part, and the units react to it. -/
def unitEvent (s : State) (m : Measured) (react : Ctx → Units → Units) : State :=
  settleEvent s m { s.desk with u := react { m := m, c := s.c } s.u } false

end Sys2Proof.Machine
end

