-- ==== Sys2Proof/Machine/Samples.lean ====
section
/-! DEFINITION. The samples of the sense channels (R94): VBAT, IBUS, PMAN, PJ0-PJ5, TILT_X and TILT_Y. -/
namespace Sys2Proof.Machine

/-- Whether a reading lies in a channel's range (R94). -/
def inRange (lo hi v : Int) : Bool := decide (lo ≤ v ∧ v ≤ hi)

/-- The range condition of a channel after a sample. -/
def sampleRange (ok : Bool) : ChannelRange := if ok then .inRange else .outOfRange

/-- Whether VBAT, IBUS and PMAN are all in range (R172, R184). -/
def coachSenseClear (m : Measured) : Bool :=
  m.vbatRange == .inRange && m.ibusRange == .inRange && m.pmanRange == .inRange

/-- SENSE_RANGE at a sample of VBAT, IBUS or PMAN (R47, R74, R172, R184): raised where the channel went out of range,
its mark cleared once all three are in range. -/
def trackSense (k : SenseChannel) (was : ChannelRange) (ok : Bool) (x : Ctx) (u : Units) : Units :=
  if ok then
    if coachSenseClear x.m && marked (faultOf u .coach) .senseRange then clearPresent .coach .senseRange u else u
  else if was = .inRange then raise x .coach .senseRange (.sense k) u
  else u

/-! ## VBAT -/

/-- The limit a VBAT sample in range gives (R45): rated limit L, V_derate D, V_floor F. -/
def budgetLimit (l d f v : Nat) : Nat :=
  if d ≤ v then l else if v ≤ f then 0 else l * (v - f) / (d - f)

/-- Whether a sample lies below V_floor (R46); a sample out of range does not count as one (R47). -/
def belowFloor (x : Ctx) (v : Int) : Bool := inRange 0 4000 v && decide (v.toNat < x.general 2)

/-- The measured part after a VBAT sample (R45 to R47). -/
def sampleVbat (x : Ctx) (v : Int) : Measured :=
  let ok := inRange 0 4000 v
  { x.m with
    bLim := if ok then budgetLimit (x.general 0) (x.general 1) (x.general 2) v.toNat else 0
    undervolt := if belowFloor x v then some (x.m.undervolt.getD x.now) else none
    vbatRange := sampleRange ok }

/-- UNDERVOLT at a VBAT sample (R46): raised once the run below V_floor has lasted 1000 ms, gone at the first sample in
range not below it. DESIGN CHOICE (log 53): a sample out of range leaves its mark as it is. -/
def trackUndervolt (v : Int) (x : Ctx) (u : Units) : Units :=
  let present := marked (faultOf u .coach) .undervolt
  match x.m.undervolt with
  | some t =>
    if !present && elapsed t x.now Config.undervoltMs then raise x .coach .undervolt (.value v) u else u
  | none => if present && inRange 0 4000 v then clearPresent .coach .undervolt u else u

/-- What a VBAT sample does at the units (R45 to R47, R54). -/
def reactVbat (was : ChannelRange) (v : Int) (x : Ctx) (u : Units) : Units :=
  applyLimit x (trackUndervolt v x (trackSense .vbat was (inRange 0 4000 v) x u))

/-- VBAT_SAMPLE (R45 to R47, R53, R54). -/
def execVbatSample (v : Int) (s : State) : Answer :=
  .next (unitEvent s (sampleVbat s.ctx v) (reactVbat s.m.vbatRange v))

/-! ## IBUS -/

/-- The overload confirmed (R57): the newest non-awning consumer shed, the advisory, the measurement returned to
none. -/
def confirmOverload (v : Int) (x : Ctx) (u : Units) : Units :=
  let victim := newestNonAwning u
  let u := match victim with
    | some a => shed x a .shedOverload [] u
    | none => u
  offerAll x (.advisory (.busOverload v.toNat x.m.bLim (victim.map (·.consumer)))) { u with overload := none }

/-- The overload check of an IBUS sample (R47, R57). -/
def checkOverload (v : Int) (x : Ctx) (u : Units) : Units :=
  if !x.running then u
  else if inRange 0 4000 v && decide (11 * x.m.bLim < 10 * v.toNat) then
    let start := u.overload.getD x.now
    if elapsed start x.now Config.overloadMs then confirmOverload v x u else { u with overload := some start }
  else { u with overload := none }

/-- What an IBUS sample does at the units. -/
def reactIbus (was : ChannelRange) (v : Int) (x : Ctx) (u : Units) : Units :=
  checkOverload v x (trackSense .ibus was (inRange 0 4000 v) x u)

/-- IBUS_SAMPLE (R47, R57). -/
def execIbusSample (v : Int) (s : State) : Answer :=
  .next (unitEvent s { s.m with ibusRange := sampleRange (inRange 0 4000 v) } (reactIbus s.m.ibusRange v))

/-! ## PMAN -/

/-- Whether a PMAN sample lies above the overpressure threshold (R73). -/
def abovePressure (x : Ctx) (v : Int) : Bool := inRange 0 3000 v && decide ((x.general 4 : Int) < v)

/-- Whether a PMAN sample confirms the overpressure (R73). -/
def pressureConfirmed (x : Ctx) (v : Int) : Bool :=
  abovePressure x v && elapsed (x.m.overpressure.getD x.now) x.now Config.overpressureMs

/-- The measured part after a PMAN sample (R73, R74). -/
def samplePman (x : Ctx) (v : Int) : Measured :=
  { x.m with
    pmanRange := sampleRange (inRange 0 3000 v)
    overpressure :=
      if abovePressure x v && !pressureConfirmed x v then some (x.m.overpressure.getD x.now) else none }

/-- What a PMAN sample does at the units (R73, R74). -/
def reactPman (was : ChannelRange) (v : Int) (confirmed : Bool) (x : Ctx) (u : Units) : Units :=
  let u := trackSense .pman was (inRange 0 3000 v) x u
  if confirmed then raise x .coach .overpressure (.value v) u else u

/-- PMAN_SAMPLE (R73, R74). -/
def execPmanSample (v : Int) (s : State) : Answer :=
  .next (unitEvent s (samplePman s.ctx v) (reactPman s.m.pmanRange v (pressureConfirmed s.ctx v)))

/-! ## PJ -/

/-- An idle jack set follows its inputs (R120). -/
def followJacks (x : Ctx) (u : Units) : Units :=
  if u.jacks.motion.isSome || !x.running then u
  else match u.jacks.state with
    | .stowed | .grounded | .partway | .unknown => updJacks (fun k => { k with state := x.jacksSettled }) u
    | .levelled => if x.allContact then u else updJacks (fun k => { k with state := x.jacksSettled }) u
    | _ => u

/-- Whether a jack's PJ channel is sampled (R94): PJ4 and PJ5 only with the JACKS6 strap. -/
def pjSampled (m : Measured) (j : Fin 6) : Bool := decide (j.val < strapJackCount m.straps)

/-- The measured part after a sample of PJ j (R119, R140): the range is judged from the commit on. -/
def samplePj (x : Ctx) (j : Fin 6) (v : Int) : Measured :=
  let ok := inRange 0 3000 v
  { x.m with
    pjLast := if ok then x.m.pjLast.set j (some v) else x.m.pjLast
    pjRange := if x.running then x.m.pjRange.set j (sampleRange ok) else x.m.pjRange }

/-- PJ_RANGE at a sample of PJ j (R140, R184). -/
def trackPj (j : Fin 6) (was : ChannelRange) (ok : Bool) (x : Ctx) (u : Units) : Units :=
  if !x.running then u
  else if ok then
    if x.presentJacks.all (fun i => x.m.pjRange[i] == .inRange) && marked (faultOf u (.group .jacks)) .pjRange then
      clearPresent (.group .jacks) .pjRange u
    else u
  else if was = .inRange then raiseGroup x .jacks .pjRange (.jack j) u
  else u

/-- What a sample of PJ j does at the units: the idle set follows a change of the contact flag (R120). -/
def reactPj (j : Fin 6) (was : ChannelRange) (contact : Bool) (v : Int) (x : Ctx) (u : Units) : Units :=
  let u := trackPj j was (inRange 0 3000 v) x u
  if x.contact j = contact then u else followJacks x u

/-- PJ_SAMPLE (R119, R120, R124, R140). -/
def execPjSample (j : Fin 6) (v : Int) (s : State) : Answer :=
  if pjSampled s.m j then
    .next (unitEvent s (samplePj s.ctx j v) (reactPj j s.m.pjRange[j] (s.ctx.contact j) v))
  else .next s

/-! ## Tilt -/

/-- A tilt row after an in-range sample (R126). -/
def pushRow (row : List Int) (v : Int) : List Int :=
  let r := row ++ [v]
  r.drop (r.length - Config.tiltRow)

/-- The average of a row (R126): of a full row its sum divided by eight, rounded toward zero; of a row that is not full
a free value (log 11). -/
def rowAverage (row : List Int) : Int :=
  if row.length = Config.tiltRow then row.sum.tdiv Config.tiltRow else Config.partialRowAverage row

/-- The error of an axis (R126). -/
def rowError (row : List Int) : Nat := (rowAverage row).natAbs

/-- The row of a tilt channel. -/
def tiltRowOf (m : Measured) : TiltAxis → List Int
  | .x => m.tiltX
  | .y => m.tiltY

/-- The range condition of a tilt channel. -/
def tiltRangeOf (m : Measured) : TiltAxis → ChannelRange
  | .x => m.tiltXRange
  | .y => m.tiltYRange

/-- Whether a tilt reading lies in range (R94). -/
def tiltOk (v : Int) : Bool := inRange (-1500) 1500 v

/-- The measured part after a tilt sample (R126, R140). -/
def sampleTilt (x : Ctx) (a : TiltAxis) (v : Int) : Measured :=
  let ok := tiltOk v
  let row := if ok then pushRow (tiltRowOf x.m a) v else []
  let range := if x.running then sampleRange ok else tiltRangeOf x.m a
  match a with
  | .x => { x.m with tiltX := row, tiltXRange := range }
  | .y => { x.m with tiltY := row, tiltYRange := range }

/-- The sense channel of a tilt axis. -/
def tiltSense : TiltAxis → SenseChannel
  | .x => .tiltX
  | .y => .tiltY

/-- TILT_RANGE at a tilt sample (R140, R184). -/
def trackTilt (a : TiltAxis) (was : ChannelRange) (ok : Bool) (x : Ctx) (u : Units) : Units :=
  if !x.running then u
  else if ok then
    if x.m.tiltXRange == .inRange && x.m.tiltYRange == .inRange
        && marked (faultOf u (.group .jacks)) .tiltRange then
      clearPresent (.group .jacks) .tiltRange u
    else u
  else if was = .inRange then raiseGroup x .jacks .tiltRange (.sense (tiltSense a)) u
  else u

/-- A lift ends at its threshold or at its deadline (R128): the lifted valves close and the RESEEK step begins. -/
def endLift (x : Ctx) (u : Units) : Units := beginReseek x (closeJackValves u)

/-- A tilt sample in a LIFT step (R128). -/
def liftSample (a : TiltAxis) (v : Int) (x : Ctx) (u : Units) : Units :=
  match u.jacks.motion with
  | some m =>
    if m.step = .lift && m.liftAxis == some a && tiltOk v
        && (decide (v.natAbs ≤ m.threshold) || decide (v.natAbs ≤ x.tolerance)) then endLift x u
    else u
  | none => u

/-- Whether an axis's error exceeds twice the tolerance (R137). -/
def drifted (x : Ctx) : Bool :=
  decide (2 * x.tolerance < rowError x.m.tiltX) || decide (2 * x.tolerance < rowError x.m.tiltY)

/-- The drift watch of a LEVELLED set at a tilt sample (R137). -/
def watchDrift (x : Ctx) (u : Units) : Units :=
  if u.jacks.state = .levelled ∧ x.m.tiltX.length = Config.tiltRow ∧ x.m.tiltY.length = Config.tiltRow then
    if drifted x then
      let start := u.jacks.drift.getD x.now
      if elapsed start x.now Config.driftMs then
        offerHolder x .jacks (.advisory (.drift (rowAverage x.m.tiltX) (rowAverage x.m.tiltY)))
          (updJacks (fun k => { k with drift := none }) u)
      else updJacks (fun k => { k with drift := some start }) u
    else updJacks (fun k => { k with drift := none }) u
  else u

/-- What a tilt sample does at the units. -/
def reactTilt (a : TiltAxis) (was : ChannelRange) (v : Int) (x : Ctx) (u : Units) : Units :=
  watchDrift x (liftSample a v x (trackTilt a was (tiltOk v) x u))

/-- TILT_SAMPLE (R126, R128, R137, R140). -/
def execTiltSample (a : TiltAxis) (v : Int) (s : State) : Answer :=
  .next (unitEvent s (sampleTilt s.ctx a v) (reactTilt a (tiltRangeOf s.m a) v))

end Sys2Proof.Machine
end

