-- ==== Sys2Proof/Machine/AxisCommands.lean ====
section
/-! DEFINITION. Switches, axis pulses and stalls (R85 to R93, R96, R103, R104, R120, R125, R131, R132, R142, R145,
R154). -/
namespace Sys2Proof.Machine

/-! ## Homing and the slow zone -/

/-- A counter after its home switch changed: homed if it was made (R87). -/
def homed (made : Bool) (k : Counter) : Counter := if made then { k with count := 0, valid := true } else k

/-- A room motor's duty written anew where the end entered or left its slow zone (R77, R89). -/
def reshapeEnd (x0 x : Ctx) (n : Fin 6) (e : RoomEnd) (u : Units) : Units :=
  if x0.roomSlow n e = x.roomSlow n e then u
  else
    let ramp := match e with | .a => u.rooms[n].rampA | .b => u.rooms[n].rampB
    writeMotor n e (reshape (x.roomSlow n e) ramp x.now (imageMotor u.image n e)) u

/-- The awning motor's duty written anew where the awning entered or left its slow zone (R77, R89). -/
def reshapeAwning (x0 x : Ctx) (u : Units) : Units :=
  if x0.awningSlow = x.awningSlow then u
  else writeAwningMotor (reshape x.awningSlow u.awning.ramp x.now u.image.awningMotor) u

/-! ## Room in-switches -/

/-- An idle room follows its switches (R96). -/
def followRoom (x : Ctx) (n : Fin 6) (u : Units) : Units :=
  if u.rooms[n].motion.isSome || !x.roomPresent n then u
  else match u.rooms[n].state with
    | .stowed | .partway | .unknown => setRoomState n (x.roomSettled n) u
    | .out => if x.roomSettled n = .partway then u else setRoomState n (x.roomSettled n) u
    | _ => u

/-- The measured part after an in-switch change (R85, R87). -/
def switchIn (m : Measured) (n : Fin 6) (e : RoomEnd) (made : Bool) : Measured :=
  let sw := m.roomSw[n]
  let m := { m with roomSw := m.roomSw.set n (match e with
    | .a => { sw with inA := made }
    | .b => { sw with inB := made }) }
  m.withCounter (.roomEnd n e) (homed made (m.counter (.roomEnd n e)))

/-- Whether an end is driven IN by a retract's drive step. -/
def drivenIn (x : Ctx) (u : Units) (n : Fin 6) (e : RoomEnd) : Bool :=
  u.rooms[n].motion.any (fun m => m.step == .drive && m.dir == .inward)
    && decide (governed x u (.roomEnd n e) < 0)

/-- Whether a room's drive step runs its drive: step DRIVE with no pin re-withdrawal. -/
def driving (u : Units) (n : Fin 6) : Bool :=
  u.rooms[n].motion.any fun m => m.step == .drive && m.pinDeadline.isNone

/-- The sync hold of a room ended: the end held returns to its shaped duty, with no new ramp; that duty is 0 where the
end has been stopped or the room holds its motors off (R88, R90). -/
def freeHeldEnd (x : Ctx) (n : Fin 6) (u : Units) : Units :=
  match u.rooms[n].syncHold with
  | none => u
  | some e =>
    let v := imageMotor u.image n e
    let ramp := match e with | .a => u.rooms[n].rampA | .b => u.rooms[n].rampB
    clearSync n
      (if v.dir = .none || !driving u n then u
       else writeMotor n e { v with duty := shapedDuty (x.roomSlow n e) ramp x.now } u)

/-- One end of a room written off: NONE and 0, or the valve OFF (R103, R104). A sync hold is cleared with it, so the
other end runs on (R90, log 48). -/
def endOff (x : Ctx) (n : Fin 6) (e : RoomEnd) (u : Units) : Units :=
  if x.electric n then freeHeldEnd x n (writeMotor n e {} u) else writeRoomValve n .off u

/-- An end of a retract reaches its in-switch (R104): written off, with HOME_CORRECTED where its count had drifted. -/
def endHome (x : Ctx) (n : Fin 6) (e : RoomEnd) (before : Counter) (u : Units) : Units :=
  let u := if before.valid && decide (Config.homeDrift < before.count.natAbs) then
      offerRoom x n (.advisory (.homeCorrected n e before.count)) u
    else u
  endOff x n e u

/-- Whether a retract's drive step stands interrupted: PAUSED with no dwell to run (R70, R110, R111). -/
def pausedRetract (u : Units) (n : Fin 6) : Bool :=
  u.rooms[n].motion.any fun m => m.step == .pause && m.dir == .inward && m.dwellEnd.isNone

/-- Whether an end of a paused retract comes home: its motor keeps direction IN, or it is the end of a HYDRAULIC
room. -/
def pausedIn (x : Ctx) (u : Units) (n : Fin 6) (e : RoomEnd) : Bool :=
  pausedRetract u n && (if x.electric n then decide (governed x u (.roomEnd n e) < 0) else e == .a)

/-- The end of a paused retract's drive step, in the event in which the room's in-switch becomes made (R75, R104).
DEDUCED (log 52): it need not be resumed first. -/
def endPausedRetract (x0 x : Ctx) (n : Fin 6) (u : Units) : Units :=
  match u.rooms[n].motion with
  | some m => if pausedRetract u n && !x0.roomIn n && x.roomIn n then endDriveStep x n m u else u
  | none => u

/-- What an in-switch change does at the room sequencer. -/
def reactIn (x0 : Ctx) (n : Fin 6) (e : RoomEnd) (made : Bool) (x : Ctx) (u : Units) : Units :=
  let u := if made && (drivenIn x u n e || pausedIn x u n e) then endHome x n e (x0.m.counter (.roomEnd n e)) u
    else reshapeEnd x0 x n e u
  followRoom x n (endPausedRetract x0 x n u)

/-- IN_SWITCH_CHANGE (R85, R87, R96, R104). -/
def execInSwitchChange (n : Fin 6) (e : RoomEnd) (made : Bool) (s : State) : Answer :=
  if s.ctx.inSwitch n e = made then .next s
  else .next (unitEvent s (switchIn s.m n e made) (reactIn s.ctx n e made))

/-- The measured part after a lock switch change. -/
def switchLock (m : Measured) (n : Fin 6) (w : LockSwitch) (made : Bool) : Measured :=
  let sw := m.roomSw[n]
  { m with roomSw := m.roomSw.set n (match w with
    | .engaged => { sw with engaged := made }
    | .withdrawn => { sw with withdrawn := made }) }

/-- The level a lock switch holds. -/
def lockSwitch (m : Measured) (n : Fin 6) : LockSwitch → Bool
  | .engaged => m.roomSw[n].engaged
  | .withdrawn => m.roomSw[n].withdrawn

/-- LOCK_SWITCH_CHANGE (R85, R96, R101, R105); the pin steps it completes are the settlement's. -/
def execLockSwitchChange (n : Fin 6) (w : LockSwitch) (made : Bool) (s : State) : Answer :=
  if lockSwitch s.m n w = made then .next s
  else .next (unitEvent s (switchLock s.m n w made) fun x u => followRoom x n u)

/-! ## Stowed switches -/

/-- The measured part after a jack's stowed switch change (R85, R87). -/
def switchJack (m : Measured) (j : Fin 6) (made : Bool) : Measured :=
  { m with jackStowed := m.jackStowed.set j made, counterJ := m.counterJ.set j (homed made m.counterJ[j]) }

/-- JACK_STOWED_SWITCH_CHANGE (R85, R87, R120, R131, R132). -/
def execJackStowedSwitchChange (j : Fin 6) (made : Bool) (s : State) : Answer :=
  if s.m.jackStowed[j] = made then .next s
  else .next (unitEvent s (switchJack s.m j made) fun x u => if x.jackPresent j then followJacks x u else u)

/-- The measured part after a change of the awning's stowed switch (R85, R87). -/
def switchAwning (m : Measured) (made : Bool) : Measured :=
  { m with awningStowed := made, counterAw := homed made m.counterAw }

/-- An idle awning follows its stowed switch and counter while no shadowed room is active (R142). -/
def followAwningSwitch (x : Ctx) (u : Units) : Units :=
  if u.awning.motion.isSome || u.awning.retract.isSome || !x.awningPresent || !(activeShadowed x u).isEmpty then u
  else match u.awning.state with
    | .stowed | .out | .unknown => updAwning (fun a => { a with state := x.awningSettled }) u
    | _ => u

/-- What a change of the awning's stowed switch does (R142, R145, R152): an IN drive step ends at the made switch. -/
def reactAwningSwitch (x0 : Ctx) (made : Bool) (x : Ctx) (u : Units) : Units :=
  let driven := awningStep u == some .drive && awningDir u == .inward
  let u := if made && driven then writeAwningMotor {} u else reshapeAwning x0 x u
  followAwningSwitch x u

/-- AWNING_STOWED_SWITCH_CHANGE (R85, R87, R142, R145, R152). -/
def execAwningStowedSwitchChange (made : Bool) (s : State) : Answer :=
  if s.m.awningStowed = made then .next s
  else .next (unitEvent s (switchAwning s.m made) (reactAwningSwitch s.ctx made))

/-! ## Pulses -/

/-- A counter after a pulse at a moment, in a direction or none (R86). -/
def pulsed (now : CoachTime) (d : Int) (k : Counter) : Counter :=
  { k with count := clampInt (-32768) 32767 (k.count + d), lastPulse := some now }

/-- The lead of two counts (R90). -/
def leadOf (a b : Int) : Int := if a ≤ b then b - a else a - b

/-- The leading end: the greater count for OUT, the smaller for IN (R90). -/
def leadingEnd (d : MotorDir) (a b : Int) : RoomEnd :=
  match d with
  | .inward => if a < b then .a else .b
  | _ => if b < a then .a else .b

/-- Whether both counters of a room are VALID or both INVALID (R90, R91). -/
def sameValidity (x : Ctx) (n : Fin 6) : Bool := (x.m.counterA[n]).valid == (x.m.counterB[n]).valid

/-- The lead of an ELECTRIC room. -/
def roomLead (x : Ctx) (n : Fin 6) : Int := leadOf (x.endCount n .a) (x.endCount n .b)

/-- The direction in which an ELECTRIC room is driven: that of the first end with one. -/
def drivenDir (u : Units) (n : Fin 6) : MotorDir :=
  if (u.image.motorA[n]).dir = .none then (u.image.motorB[n]).dir else (u.image.motorA[n]).dir

/-- Whether a counted pulse finds a SYNC fault (R91). -/
def syncFault (x : Ctx) (u : Units) (n : Fin 6) : Bool :=
  x.electric n && drivenDir u n != .none && sameValidity x n && decide ((x.roomField n 11 : Int) < roomLead x n)

/-- The leading end of a room (R90). -/
def roomLeader (x : Ctx) (u : Units) (n : Fin 6) : RoomEnd :=
  leadingEnd (drivenDir u n) (x.endCount n .a) (x.endCount n .b)

/-- The sync hold and its release at a counted pulse, a coasting one in a pause or a dwell among them (R86, R90); a
release returns the end to its shaped duty with no new ramp (R88). -/
def syncHold (x : Ctx) (n : Fin 6) (u : Units) : Units :=
  let a := u.image.motorA[n]
  let b := u.image.motorB[n]
  if x.electric n && a.dir != .none && a.dir == b.dir && sameValidity x n then
    match u.rooms[n].syncHold with
    | none =>
      if (x.roomField n 10 : Int) < roomLead x n then
        let e := roomLeader x u n
        updRoom n (fun r => { r with syncHold := some e }) (holdMotor n e u)
      else u
    | some _ =>
      if roomLead x n ≤ (x.roomField n 10 / 2 : Nat) then
        freeHeldEnd x n u
      else u
  else u

/-- An end of an extend that reaches its end position is stopped; the other end's sync hold is cleared with it
(R90, R103). DESIGN CHOICE (log 75): only the end that gave the pulse is tested, so an end that stands at or beyond a
target an update has lowered (R107) stops at its own next counted pulse, not at the other end's. -/
def stopAtEnd (x : Ctx) (n : Fin 6) (e : RoomEnd) (u : Units) : Units :=
  match u.rooms[n].motion with
  | some m =>
    if m.dir = .outward && driving u n && decide (endPosition x n m ≤ x.endCount n e) then
      endOff x n e u
    else u
  | none => u

/-- Whether every driven end of a room stands at the pin release count or beyond, at least one being driven (R103). -/
def pinMayDrop (x : Ctx) (u : Units) (n : Fin 6) : Bool :=
  let ends := (x.ends n).filter fun e => governed x u (.roomEnd n e) != 0
  !ends.isEmpty && ends.all fun e => decide (Config.pinReleaseCount ≤ x.endCount n e)

/-- The pin released in an extend (R103). -/
def releasePin (x : Ctx) (n : Fin 6) (u : Units) : Units :=
  if admitted u (.pin n) && driving u n && u.rooms[n].motion.any (fun m => m.dir == .outward) && pinMayDrop x u n then
    giveUp x [.pin n] (writePin n false u)
  else u

/-- What a counted pulse of a room end does (R86, R89 to R91, R103; log 26). -/
def roomPulse (x0 : Ctx) (n : Fin 6) (e : RoomEnd) (x : Ctx) (u : Units) : Units :=
  let u := reshapeEnd x0 x n e u
  if syncFault x u n then
    raiseGroup x (.room n) .sync (.roomEnd (roomLeader x u n) (roomLead x n)) u
  else syncHold x n (releasePin x n (stopAtEnd x n e u))

/-- What a counted pulse of a jack does (R125); limits and lifts are the settlement's. -/
def jackPulse (j : Fin 6) (x : Ctx) (u : Units) : Units :=
  let seeking := u.jacks.motion.any fun m => m.step == .seek || m.step == .reseek
  if seeking && u.image.jackValve[j] == .down && x.jackAtLimit .down j && !x.contact j then
    raiseGroup x .jacks .noGround (.jack j) u
  else u

/-- Whether a counted pulse brings a VALID awning count above the stroke plus 50 (R154). -/
def overruns (x0 x : Ctx) : Bool :=
  let limit := x.awningStroke + Config.overrunCounts
  x.m.counterAw.valid && decide (limit < x.m.counterAw.count) && decide (x0.m.counterAw.count ≤ limit)

/-- What a counted pulse of the awning does (R89, R145, R154). -/
def awningPulse (x0 : Ctx) (x : Ctx) (u : Units) : Units :=
  let u := reshapeAwning x0 x u
  if overruns x0 x then raiseGroup x .awning .stall .overrun u
  else if u.awning.motion.any (fun m => m.step == .drive && m.dir == .outward)
      && decide (awningEnd x u ≤ x.m.counterAw.count) then writeAwningMotor {} u
  else u

/-- What a counted pulse does at the unit that writes the governing channel (R86). -/
def reactPulse (x0 : Ctx) (a : Axis) (x : Ctx) (u : Units) : Units :=
  match a with
  | .roomEnd n e => roomPulse x0 n e x u
  | .jack j => jackPulse j x u
  | .awning => awningPulse x0 x u

/-- AXIS_PULSE (R86): the pulse stamps its counter; it counts if the governing channel shows a direction. -/
def execAxisPulse (a : Axis) (s : State) : Answer :=
  let d := governed s.ctx s.u a
  let m := s.m.withCounter a (pulsed s.m.now d (s.m.counter a))
  if d = 0 then .next { s with m := m } else .next (unitEvent s m (reactPulse s.ctx a))

/-! ## Stalls -/

/-- The stall window of an axis (R92). -/
def stallWindow (x : Ctx) : Axis → Nat
  | .roomEnd n _ => x.roomField n 8
  | .jack _ | .awning => Config.stallWindowMs

/-- The later of two coach times (R22). -/
def later (a b : CoachTime) : CoachTime := if reached a b then b else a

/-- Whether an axis stalls now (R92): its drive on, and the window past since the later of the drive-on stamp plus
300 ms and the last pulse. -/
def stalls (s : State) (a : Axis) : Bool :=
  match s.u.driveOn[axisIdx a] with
  | none => false
  | some t =>
    let grace := after t Config.stallGraceMs
    let start := match (s.m.counter a).lastPulse with
      | some p => later grace p
      | none => grace
    reached (after start (stallWindow s.ctx a)) s.m.now

/-- The group and the detail of a stalled axis (R92). -/
def stallSubject : Axis → Group × Detail
  | .roomEnd n e => (.room n, .roomEnd e 0)
  | .jack j => (.jacks, .jack j)
  | .awning => (.awning, .awningAxis)

/-- STALL (R92). -/
def execStall (a : Axis) (s : State) : Answer :=
  if stalls s a then
    .next (unitEvent s s.m fun x u => raiseGroup x (stallSubject a).1 .stall (stallSubject a).2 u)
  else .next s

end Sys2Proof.Machine
end

