-- ==== Sys2Proof/Machine/ChainCommands.lean ====
section
/-! DEFINITION. The driver chain: periodic frames, echoes, missing echoes (R78 to R84), with the confirmations and the
held clears an echo decides (R174, R182). -/
namespace Sys2Proof.Machine

/-- PERIODIC_FRAME_START (R78): a frame starts 10 ms after the last one did; while one is in flight the end of its
10 ms is the missing echo (log 29). -/
def execPeriodicFrameStart (s : State) : Answer :=
  if s.u.flight.isNone && elapsed s.u.frameStart s.m.now Config.framePeriodMs then
    .next (settleEvent s s.m s.desk true)
  else .next s

/-! ## Failures of a frame (R80) -/

/-- Whether one more failure raises CHAIN_ECHO (R80). -/
def failureRaises (count : Nat) : Bool := decide (Config.mismatchMax ≤ count + 1)

/-- The mismatch count after one more failure (R80). -/
def countFailure (count : Nat) : Nat := if failureRaises count then 0 else count + 1

/-- The frame in flight leaves flight (R78). -/
def landFlight (u : Units) : Units := { u with flight := none }

/-- What a missing echo does at the units (R80). -/
def reactMissing (raises : Bool) (x : Ctx) (u : Units) : Units :=
  landFlight (if raises then raise x .coach .chainEcho .missing u else u)

/-- ECHO_MISSING (R78, R80): 10 ms after the start of the frame in flight; the periodic frame starts in the event. -/
def execEchoMissing (s : State) : Answer :=
  match s.u.flight with
  | none => .next s
  | some f =>
    if elapsed f.start s.m.now Config.framePeriodMs then
      let m := { s.m with mismatch := countFailure s.m.mismatch }
      let u := reactMissing (failureRaises s.m.mismatch) { m := m, c := s.c } s.u
      .next (settleEvent s m { s.desk with u := u } true)
    else .next s

/-! ## Trips and hot boards (R81, R82) -/

/-- Whether a trip flag is new in an echo (R81). -/
def newTrip (last : Option Echo) (e : Echo) (k : Fin 33) : Bool :=
  e.trips.contains k && !last.any fun p => p.trips.contains k

/-- The new trips of an echo raised, in the channel order (R81). -/
def raiseNewTrips (x : Ctx) (last : Option Echo) (e : Echo) (u : Units) : Units :=
  (allChannels.filter (newTrip last e)).foldl (fun u k => raiseTrip x k u) u

/-- The position of the first hot board (R82). -/
def hotBoard (e : Echo) : Option Nat := e.boards.findIdx? (·.hot)

/-- BOARD_HOT at an echo (R82; log 17). -/
def trackHot (x : Ctx) (e : Echo) (u : Units) : Units :=
  match hotBoard e with
  | some k => if marked (faultOf u .coach) .boardHot then u else raise x .coach .boardHot (.board k) u
  | none => if marked (faultOf u .coach) .boardHot then clearPresent .coach .boardHot u else u

/-! ## Confirmation (R174) -/

/-- Whether a channel is carried off and latched as carried. -/
def carriedOff (frame latched : Image) (k : Fin 33) : Bool :=
  channelOff (channelValue frame k) && channelValue latched k == channelValue frame k

/-- Whether an echo shows a subject's outputs off (R174): for COACH an all-off frame and a match. -/
def showsOff (frame latched : Image) (s : Subject) : Bool :=
  match s with
  | .coach => imageAllOff frame && (firstDifference frame latched).isNone
  | .group _ => allChannels.all fun k => !subjectHasChannel s k || carriedOff frame latched k

/-- One record confirmed by an echo whose frame was built after its latest halt (R174). -/
def confirmSubject (latched : Image) (u : Units) (s : Subject) : Units :=
  match u.flight with
  | some f =>
    if f.confirms[subjectIdx s] && showsOff f.frame latched s then
      setFault s { faultOf u s with confirmed := true } u
    else u
  | none => u

/-- Every record an echo confirms. -/
def confirmAll (latched : Image) (u : Units) : Units := allSubjects.foldl (confirmSubject latched) u

/-! ## Held clears (R182) -/

/-- The first channel of a subject that shows its trip flag (log 19). -/
def trippedChannel (e : Echo) (s : Subject) : Option (Fin 33) :=
  allChannels.find? fun k => subjectHasChannel s k && e.trips.contains k

/-- Whether a hot board carries a channel of a subject (R182). -/
def hotUnder (e : Echo) (s : Subject) : Bool :=
  e.boards.any fun b => b.hot && b.channels.any (subjectHasChannel s)

/-- The held clears of a subject answered OK, the record cleared for the first of them (R182, R183). -/
def clearHeld (x : Ctx) (s : Subject) (hs : List HeldClear) (u : Units) : Units :=
  match hs with
  | [] => u
  | h :: _ =>
    hs.foldl (fun u h => respondHeld x h .ok u)
      (clearRecord x s h.link { u with heldClears := u.heldClears.filter fun h => h.subject != s })

/-- The held clears of one subject decided by an echo (R182). DESIGN CHOICE (log 58): an old trip flag that a group's
clear and COACH's both see is raised by each. -/
def decideHeld (x : Ctx) (last : Option Echo) (e : Echo) (u : Units) (s : Subject) : Units :=
  let mine := fun h : HeldClear => h.subject == s
  if !u.heldClears.any mine then u
  else match trippedChannel e s with
    | some k => answerStillActive x mine (if newTrip last e k then u else raiseTrip x k u)
    | none =>
      if hotUnder e s then answerStillActive x mine u
      else clearHeld x s (u.heldClears.filter mine) u

/-! ## ECHO_RECEIVED -/

/-- CHAIN_EN rises at a match of an all-off frame in RUN; the settlement takes the rise back where the event leaves the
COACH record ACTIVE (R83, R179; holdChainLow). -/
def riseChain (x : Ctx) (f : Flight) (e : Echo) (u : Units) : Units :=
  if x.running && showsOff f.frame e.latched .coach then { u with chainEn := true } else u

/-- What an echo does at the units (R80 to R84, R174, R182). DESIGN CHOICE: CHAIN_ECHO, the new trips in channel order
and BOARD_HOT are raised in this order (log 55), confirmed records are CLEARABLE before held clears are decided (log 59),
these are decided after every new trip is raised (log 67), and they are decided and answered in subject order (log 60). -/
def reactEcho (f : Flight) (e : Echo) (last : Option Echo) (raises : Option (Fin 33)) (x : Ctx) (u : Units) : Units :=
  let u := match raises with
    | some k => raise x .coach .chainEcho (.channel k) u
    | none => u
  let u := trackHot x e (raiseNewTrips x last e u)
  let u := settleRecords (confirmAll e.latched u)
  let u := allSubjects.foldl (decideHeld x last e) u
  riseChain x f e (landFlight u)

/-- The measured part after an echo (R80, R81). -/
def takeEcho (m : Measured) (e : Echo) (differs : Bool) : Measured :=
  { m with lastEcho := some e, mismatch := if differs then countFailure m.mismatch else 0 }

/-- ECHO_RECEIVED (R80 to R84); an echo with no frame in flight is discarded (R80). -/
def execEchoReceived (e : Echo) (s : State) : Answer :=
  match s.u.flight with
  | none => .next s
  | some f =>
    let diff := firstDifference f.frame e.latched
    let raises := if failureRaises s.m.mismatch then diff else none
    .next (unitEvent s (takeEcho s.m e diff.isSome) (reactEcho f e s.m.lastEcho raises))

end Sys2Proof.Machine
end

