-- ==== Sys2Proof/Machine/ChassisCommands.lean ====
section
/-! DEFINITION. Road speed and ESTOP (R15, R172). -/
namespace Sys2Proof.Machine

/-- The road speed a window's pulse count gives (R15). -/
def windowSpeed (count perKm : Nat) : Nat := min 150 (count * 3600 / perKm)

/-- The measured part after a road-speed window (R15). -/
def endWindow (x : Ctx) : Measured :=
  { x.m with
    roadSpeed := windowSpeed x.m.spdCount (x.general 5)
    spdCount := 0
    windowStart := after x.m.windowStart Config.secondMs }

/-- ROAD_SPEED_WINDOW_END (R15); ROAD_MOTION is judged in the settlement (R172). -/
def execRoadSpeedWindowEnd (s : State) : Answer :=
  if elapsed s.m.windowStart s.m.now Config.secondMs then .next (unitEvent s (endWindow s.ctx) fun _ u => u)
  else .next s

/-- SPD_PULSE (R15). -/
def execSpdPulse (s : State) : Answer := .next { s with m := { s.m with spdCount := s.m.spdCount + 1 } }

/-- ESTOP_ASSERTED (R15, R172): the code is raised in the event in which the field becomes ASSERTED. -/
def execEstopAsserted (s : State) : Answer :=
  if s.m.estop then .next s
  else .next (unitEvent s { s.m with estop := true } fun x u => raise x .coach .estop .none u)

/-- ESTOP_RELEASED (R15, R172): the input has been at its released level for 100 ms. -/
def execEstopReleased (s : State) : Answer :=
  if s.m.estop then
    .next (unitEvent s { s.m with estop := false } fun _ u => clearPresent .coach .estop u)
  else .next s

end Sys2Proof.Machine
end

