-- ==== Sys2Proof/Machine/ClaimTimers.lean ====
section
/-! DEFINITION. The two timers of a wait entry (R36, R37). -/
namespace Sys2Proof.Machine

/-- Whether an entry's wait reaches the preemption time, its first test still to come (R37). -/
def firstTestDue (x : Ctx) (e : WaitEntry) : Bool :=
  x.timing 3 != 0 && !e.tested && reached (after e.arrival (x.timing 3 * 1000)) x.now

/-- The first preemption test of the entry at place i (R37). -/
def firstTest (i : Nat) (e : WaitEntry) (x : Ctx) (u : Units) : Units :=
  let e := { e with tested := true }
  testPreemption x i e { u with waitList := u.waitList.set i e }

/-- PREEMPTION_TIME_REACHED (R37, R38). -/
def execPreemptionTimeReached (i : Nat) (s : State) : Answer :=
  match s.u.waitList[i]? with
  | some e => if firstTestDue s.ctx e then .next (unitEvent s s.m (firstTest i e)) else .next s
  | none => .next s

/-- An entry leaves the list at its deadline (R36). -/
def expireEntry (i : Nat) (e : WaitEntry) (x : Ctx) (u : Units) : Units :=
  offerTo x e.link (.claimRefused e.tag e.asked .timeout) { u with waitList := u.waitList.eraseIdx i }

/-- CLAIM_WAIT_DEADLINE (R36). -/
def execClaimWaitDeadline (i : Nat) (s : State) : Answer :=
  match s.u.waitList[i]? with
  | some e => if reached e.deadline s.m.now then .next (unitEvent s s.m (expireEntry i e)) else .next s
  | none => .next s

end Sys2Proof.Machine
end

