-- ==== Sys2Proof/Machine/LineCommands.lean ====
section
/-! DEFINITION. Changes of the wired lines and the deadlines of the virtual ones (R157, R159). -/
namespace Sys2Proof.Machine

/-- The start of a level change being timed written. -/
def setTiming (n : Fin 16) (t : Option CoachTime) (d : Desk) : Desk :=
  { d with c := { d.c with wired := d.c.wired.set n { d.c.wired[n] with timing := t } } }

/-- What a wired input shows (R157): the other level is timed, and taken once it has held for the debounce time. -/
def showLevel (m : Measured) (n : Fin 16) (v : Level) (since : CoachTime) (d : Desk) : Desk :=
  if v = d.c.wired[n].level then setTiming n none d
  else if elapsed since m.now d.c.wired[n].debounce then setLevel m n v d
  else setTiming n (some since) d

/-- LINE_DEBOUNCE_CHANGE (R157; log 20). -/
def execLineDebounceChange (n : Fin 16) (v : Level) (since : CoachTime) (s : State) : Answer :=
  .next (settleEvent s s.m (showLevel s.m n v since s.desk) false)

/-- VIRTUAL_LINE_DEADLINE (R159). -/
def execVirtualLineDeadline (v : Fin 8) (s : State) : Answer :=
  if s.c.virt[v].value && dueAt s.c.virt[v].deadline s.m.now then
    .next (settleEvent s s.m (dropVirtual s.m v s.desk) false)
  else .next s

end Sys2Proof.Machine
end

