-- ==== Sys2Proof/Machine/LinkCommands.lean ====
section
/-! DEFINITION. The receivers, the transmitters and the silence deadline of the master links (R186 to R190). -/
namespace Sys2Proof.Machine

/-- A tally after one more (R186). -/
def bump (n : Nat) : Nat := min Config.tallyMax (n + 1)

/-- One port's tallies changed, and the receiver hunting again (R186). -/
def discardFrame (l : Link) (f : Tallies → Tallies) (c : Setup) : Setup :=
  updPort c l fun p => { p with tallies := f p.tallies, part := none }

/-- A change of the setup part alone, which no unit reacts to. -/
def setupEvent (s : State) (c : Setup) : Answer := .next { s with c := c }

/-! ## Valid frames (R188, R189) -/

/-- The link state at the receipt of a valid frame (R188). -/
def hearLink (m : Measured) (l : Link) (c : Setup) : Setup :=
  let x : Ctx := { m := m, c := c }
  updPort c l fun p => { p with linked := true, silence := some (after m.now (x.timing 1)), part := none }

/-- The QUEUE_FULL responses of a response line (R189). -/
def queueFulls (line : List Response) : Nat := (line.filter fun r => r.status == .queueFull).length

/-- A request joins the receive queue, or is answered QUEUE_FULL, or is discarded with the OVERRUN tally (R189). -/
def queueRequest (l : Link) (q : QueuedRequest) (d : Desk) : Desk :=
  if (d.c.ports[linkIdx l]).rx.length < Config.rxMax then
    { d with c := updPort d.c l fun p => { p with rx := p.rx ++ [q] } }
  else if queueFulls (d.u.out[linkIdx l]).line < Config.queueFullMax then
    { d with u := respond l (requestKind q.req) q.tag .queueFull [] d.u }
  else
    { d with c := updPort d.c l fun p => { p with tallies := { p.tallies with overrun := bump p.tallies.overrun } } }

/-- The receipt of a valid frame that carries a request: one event at the port (R188, R189). -/
def receive (l : Link) (tag : Byte) (q : Request) (s : State) : Answer :=
  .next (settleEvent s s.m
    (queueRequest l { tag := tag, req := q } { s.desk with c := hearLink s.m l s.c }) false)

/-- VALID_FRAME_RECEIPT (R186, R188, R189). -/
def execValidFrameReceipt (l : Link) (kind tag : Byte) (payload : List Byte) (s : State) : Answer :=
  receive l tag (readRequest kind payload) s

/-! ## Bytes (R186) -/

/-- The CRC tally of a discarded frame. -/
def crcDiscard (l : Link) (c : Setup) : Setup := discardFrame l (fun t => { t with crc := bump t.crc }) c

/-- A collected frame, LEN first and the CRC last: the request it carries, if its CRC matches (R186, R187). -/
def frameRequest (bytes : List Byte) : Option QueuedRequest :=
  let body := bytes.dropLast.dropLast
  if bytes = body ++ crcBytes body then
    match body with
    | _ :: kind :: tag :: payload => some { tag := tag, req := readRequest kind payload }
    | _ => none
  else none

/-- One more byte of a partial frame, whose LEN is known: it goes on, or it is complete and is checked (R186). -/
def collectByte (l : Link) (len : Byte) (bytes : List Byte) (s : State) : Answer :=
  if bytes.length < len.toNat + 3 then
    setupEvent s (updPort s.c l fun p => { p with part := some { bytes := bytes, last := s.m.now } })
  else match frameRequest bytes with
    | some q => receive l q.tag q.req s
    | none => setupEvent s (crcDiscard l s.c)

/-- BYTE_RECEIVED (R186). -/
def execByteReceived (l : Link) (b : Byte) (s : State) : Answer :=
  match (s.c.ports[linkIdx l]).part with
  | none =>
    if b = Config.startByte then
      setupEvent s (updPort s.c l fun p => { p with part := some { bytes := [], last := s.m.now } })
    else .next s
  | some p =>
    match p.bytes with
    | [] =>
      if b.toNat < Config.lenMin ∨ Config.lenMax < b.toNat then
        setupEvent s (discardFrame l (fun t => { t with length := bump t.length }) s.c)
      else setupEvent s (updPort s.c l fun p => { p with part := some { bytes := [b], last := s.m.now } })
    | len :: _ => collectByte l len (p.bytes ++ [b]) s

/-- CRC_MISMATCH_DISCARD (R186). -/
def execCrcMismatchDiscard (l : Link) (s : State) : Answer := setupEvent s (crcDiscard l s.c)

/-- LENGTH_DISCARD (R186). -/
def execLengthDiscard (l : Link) (s : State) : Answer :=
  setupEvent s (discardFrame l (fun t => { t with length := bump t.length }) s.c)

/-- The TRUNCATED tally of a discarded partial frame. -/
def truncate (l : Link) (c : Setup) : Setup := discardFrame l (fun t => { t with truncated := bump t.truncated }) c

/-- PARTIAL_FRAME_TIMEOUT (R186): 5 ms after the last byte of a partial frame. -/
def execPartialFrameTimeout (l : Link) (s : State) : Answer :=
  match (s.c.ports[linkIdx l]).part with
  | some p => if elapsed p.last s.m.now Config.byteGapMs then setupEvent s (truncate l s.c) else .next s
  | none => .next s

/-- LINE_BREAK (R186): a break while hunting raises no tally. -/
def execLineBreak (l : Link) (s : State) : Answer :=
  if (s.c.ports[linkIdx l]).part.isSome then setupEvent s (truncate l s.c) else .next s

/-- FRAMING_ERROR (R186): its tally rises while hunting as well. -/
def execFramingError (l : Link) (s : State) : Answer :=
  setupEvent s (discardFrame l (fun t => { t with framing := bump t.framing }) s.c)

/-- RECEIVER_OVERRUN (R186): its tally rises while hunting as well. -/
def execReceiverOverrun (l : Link) (s : State) : Answer :=
  setupEvent s (discardFrame l (fun t => { t with overrun := bump t.overrun }) s.c)

/-! ## Transmitter and silence -/

/-- TRANSMIT_FRAME_END (R190): the transmitter is free, and starts the next frame if there is one. -/
def execTransmitFrameEnd (l : Link) (s : State) : Answer :=
  if (s.c.ports[linkIdx l]).sending.isSome then
    .next (settleEvent s s.m { s.desk with c := updPort s.c l fun p => { p with sending := none } } false)
  else .next s

/-- The port of a link that goes SILENT (R188): everything but its tallies and the frame being sent. -/
def silencePort (l : Link) (d : Desk) : Desk where
  c := updPort d.c l fun p => { p with linked := false, silence := none, rx := [], attention := false }
  u := updOut d.u l fun _ => {}

/-- What the silence of a link ends at the other units (R5, R41, R159). DESIGN CHOICE (log 57): in this order, the
virtual lines last. -/
def silenceUnits (m : Measured) (l : Link) (d : Desk) : Desk :=
  let x := d.ctx m
  let u := releaseAll x l .abortedLink (heldBy d.u l allGroups) d.u
  let u := { u with waitList := u.waitList.filter fun e => e.link != l }
  let c := if d.c.owner = some l then endStaging m d.c else d.c
  silenceVirtual m l { c := c, u := u }

/-- SILENCE_DEADLINE (R188). -/
def execSilenceDeadline (l : Link) (s : State) : Answer :=
  if dueAt (s.c.ports[linkIdx l]).silence s.m.now then
    .next (settleEvent s s.m (silenceUnits s.m l (silencePort l s.desk)) false)
  else .next s

end Sys2Proof.Machine
end

