-- ==== Sys2Proof/Machine/ManifoldTimers.lean ====
section
/-! DEFINITION. The timers of the manifold: the switching end and the heat intervals (R63, R69 to R71). -/
namespace Sys2Proof.Machine

/-- A diverter movement completes (R63): the turn user asks for PUMP; without one the queue head takes its turn. -/
def endSwitching (x : Ctx) (u : Units) : Units :=
  let u := updManifold u fun f => { f with switchingEnd := none }
  if u.manifold.user.isSome then askPump x u else nextTurn x u

/-- SWITCHING_END (R63). -/
def execSwitchingEnd (s : State) : Answer :=
  if s.u.manifold.state == .switching && dueAt s.u.manifold.switchingEnd s.m.now then
    .next (unitEvent s s.m endSwitching)
  else .next s

/-- The units with the heat interval moved on. -/
def nextHeatInterval (ms : Nat) (u : Units) : Units :=
  updManifold u fun f => { f with heatStart := after f.heatStart ms }

/-- The user whose turn the heat interrupts enters PAUSED (R70, R111, R136). -/
def pauseForHeat (x : Ctx) (k : ManifoldUser) (u : Units) : Units :=
  match k with
  | .room n => enterPaused x n .pumpHeat false (updRoomMotion n (fun m => { m with lostTurn := true }) u)
  | .jacks => jackPause x .pumpHeat u

/-- The manifold enters COOLING (R70). DESIGN CHOICE (log 54): the user is PAUSED and queued first, the admission pass
of PUMP's give-up runs last. -/
def enterCooling (x : Ctx) (u : Units) : Units :=
  match u.manifold.user with
  | none => u
  | some k =>
    let u := updManifold (writePump x false u) fun f =>
      { f with state := .cooling, user := none, queue := { user := k, interrupted := true } :: f.queue }
    giveUp x [.pump] (pauseForHeat x k u)

/-- HEAT_RISE (R69, R70): a full 100 ms of running. -/
def execHeatRise (s : State) : Answer :=
  if s.u.image.pump && elapsed s.u.manifold.heatStart s.m.now Config.heatRiseMs then
    let heat := min Config.heatMax (s.m.heat + 1)
    let m := { s.m with heat := heat }
    if heat = Config.heatMax then
      .next (unitEvent s m fun x u => enterCooling x (nextHeatInterval Config.heatRiseMs u))
    else .next { s with m := m, u := nextHeatInterval Config.heatRiseMs s.u }
  else .next s

/-- HEAT_FALL (R69, R71): a full 300 ms of rest. -/
def execHeatFall (s : State) : Answer :=
  if !s.u.image.pump && elapsed s.u.manifold.heatStart s.m.now Config.heatFallMs then
    let m := { s.m with heat := s.m.heat - 1 }
    if s.u.manifold.state == .cooling && decide (m.heat ≤ Config.heatResume) then
      .next (unitEvent s m fun x u => nextTurn x (nextHeatInterval Config.heatFallMs u))
    else .next { s with m := m, u := nextHeatInterval Config.heatFallMs s.u }
  else .next s

end Sys2Proof.Machine
end

