-- ==== Sys2Proof/Machine/MotionTimers.lean ====
section
/-! DEFINITION. The timers of the motions: pin timeouts, dwells, holds, and the deadlines of the levelling steps. A row
taken before its timer's moment changes nothing (log 2). -/
namespace Sys2Proof.Machine

/-! ## Rooms -/

/-- A pin deadline runs out (R101, R105, R110). -/
def expirePin (n : Fin 6) (x : Ctx) (u : Units) : Units :=
  raiseGroup x (.room n) .pinTimeout (if inPinEngage u n then .pinEngage else .pinWithdraw) u

/-- PIN_TIMEOUT (R101, R105, R110). -/
def execPinTimeout (n : Fin 6) (s : State) : Answer :=
  if dueAt (s.u.rooms[n].motion.bind (·.pinDeadline)) s.m.now then .next (unitEvent s s.m (expirePin n))
  else .next s

/-- The drive in the new direction after a dwell: with the resource held, or asking for it (R109). -/
def driveAfterDwell (x : Ctx) (n : Fin 6) (u : Units) : Units :=
  if hasDrive x n u then roomReady x n u else driveRequest x n u

/-- A reverse dwell ends (R109): a room still waiting for what it lost stays PAUSED. -/
def endDwell (n : Fin 6) (x : Ctx) (u : Units) : Units :=
  match u.rooms[n].motion with
  | none => u
  | some m =>
    let u := updRoomMotion n (fun m => { m with dwellEnd := none }) u
    if m.step = .pause then
      if nothingLost m then driveAfterDwell x n (offerRoom x n (.resumed (.room n)) u) else u
    else driveAfterDwell x n u

/-- ROOM_DWELL_END (R109). -/
def execRoomDwellEnd (n : Fin 6) (s : State) : Answer :=
  if dueAt (s.u.rooms[n].motion.bind (·.dwellEnd)) s.m.now then .next (unitEvent s s.m (endDwell n))
  else .next s

/-! ## Awning -/

/-- The reverse dwell of the awning ends (R146, R151): the drive starts, or waits for the readmission. -/
def endAwningDwell (x : Ctx) (u : Units) : Units :=
  if admitted u .awning then startAwning x u else setAwningStep .dwell none u

/-- AWNING_DWELL_END (R146, R151). -/
def execAwningDwellEnd (s : State) : Answer :=
  if dueAt (awningDwellEnd s.u) s.m.now then .next (unitEvent s s.m endAwningDwell) else .next s

/-! ## Holds -/

/-- The hold source of a group's motion. -/
def groupHold (u : Units) : Group → HoldSource
  | .room n => (u.rooms[n].motion.map (·.hold)).getD .none
  | .jacks => (u.jacks.motion.map (·.hold)).getD .none
  | .awning => (u.awning.motion.map (·.hold)).getD .none

/-- Whether a hold deadline is reached. -/
def holdExpired (h : HoldSource) (now : CoachTime) : Bool :=
  match h with
  | .deadline t => reached t now
  | _ => false

/-- HOLD_DEADLINE_EXPIRY (R114, R134, R147); it has no effect in PIN_ENGAGE (R105). -/
def execHoldDeadlineExpiry (g : Group) (s : State) : Answer :=
  if holdExpired (groupHold s.u g) s.m.now then .next (unitEvent s s.m fun x u => stopMotion x g .released u)
  else .next s

/-! ## Levelling -/

/-- Whether the jack operation stands in a step a test picks whose deadline is reached. -/
def jackStepDue (s : State) (pick : JackStep → Bool) : Bool :=
  s.u.jacks.motion.any fun m => pick m.step && dueAt m.deadline s.m.now

/-- SEEK_TIMEOUT raised (R125): the detail is the lowest jack not in CONTACT. -/
def expireSeek (x : Ctx) (u : Units) : Units :=
  match x.presentJacks.find? fun j => !x.contact j with
  | some j => raiseGroup x .jacks .seekTimeout (.jack j) u
  | none => u

/-- SEEK_TIMEOUT (R125, R130). -/
def execSeekTimeout (s : State) : Answer :=
  if jackStepDue s (fun st => st == .seek || st == .reseek) then .next (unitEvent s s.m expireSeek) else .next s

/-- The jacks a lift raises (R128), by the axis, whether its average is positive, and the jack count: jacks 0 to 5 are
LF, RF, LR, RR, LM, RM. -/
def liftedJacks (a : TiltAxis) (positive six : Bool) : List (Fin 6) :=
  match a, positive with
  | .x, true => [2, 3]
  | .x, false => [0, 1]
  | .y, true => if six then [0, 2, 4] else [0, 2]
  | .y, false => if six then [1, 3, 5] else [1, 3]

/-- The axis a lift corrects (R128): the one with the larger error, pitch where the two are equal. -/
def liftAxis (pitch roll : Nat) : TiltAxis := if pitch < roll then .y else .x

/-- The LIFT step begins (R128); a jack already at its limit is the settlement's (R129). -/
def beginLift (x : Ctx) (u : Units) : Units :=
  let a := liftAxis (rowError x.m.tiltX) (rowError x.m.tiltY)
  let avg := rowAverage (tiltRowOf x.m a)
  let js := liftedJacks a (decide (0 < avg)) (x.jackField 0 == 6)
  let u := updJackMotion (fun m => { m with liftAxis := some a, lifted := js, threshold := avg.natAbs / 2 })
    (setJackStep .lift .levelling (some (after x.now Config.liftMs)) u)
  if js.any (x.jackAtLimit .down) then u else driveJacks .down js.contains u

/-- The comparison at the end of a settle (R127). -/
def comparePass (x : Ctx) (passes : Nat) (u : Units) : Units :=
  if rowError x.m.tiltX ≤ x.tolerance ∧ rowError x.m.tiltY ≤ x.tolerance then endJacks x .completed .levelled u
  else if Config.passMax ≤ passes then endJacks x .unreachable .grounded u
  else beginLift x u

/-- A settle ends (R127). -/
def endSettle (x : Ctx) (u : Units) : Units :=
  match u.jacks.motion with
  | none => u
  | some m =>
    if x.allContact then
      comparePass x (m.passes + 1) (updJackMotion (fun m => { m with passes := m.passes + 1 }) u)
    else beginReseek x u

/-- SETTLE_END (R127, R128). -/
def execSettleEnd (s : State) : Answer :=
  if jackStepDue s (· == .settle) then .next (unitEvent s s.m endSettle) else .next s

/-- LIFT_DEADLINE (R128). -/
def execLiftDeadline (s : State) : Answer :=
  if jackStepDue s (· == .lift) then .next (unitEvent s s.m endLift) else .next s

/-- RETRACT_TIMEOUT raised (R132): the detail is the lowest jack not stowed. -/
def expireRetract (x : Ctx) (u : Units) : Units :=
  match x.presentJacks.find? fun j => !x.m.jackStowed[j] with
  | some j => raiseGroup x .jacks .retractTimeout (.jack j) u
  | none => u

/-- RETRACT_TIMEOUT (R132). -/
def execRetractTimeout (s : State) : Answer :=
  if jackStepDue s (· == .retract) then .next (unitEvent s s.m expireRetract) else .next s

end Sys2Proof.Machine
end

