-- ==== Sys2Proof/Machine/RequestCommands.lean ====
section
/-! DEFINITION. The request rows of the table: the receipt of a valid frame with that request on the link (log 4). Each
request joins the receive queue and is decided when the port takes it (R189; decideRequest). -/
namespace Sys2Proof.Machine

/-- PING (R196). -/
def execPing (l : Link) (tag : Byte) (s : State) : Answer := receive l tag .ping s
/-- LINK_STATUS (R196). -/
def execLinkStatus (l : Link) (tag : Byte) (s : State) : Answer := receive l tag .linkStatus s
/-- PROFILE_STAGE (R4). -/
def execProfileStage (l : Link) (tag : Byte) (sec : Section) (es : List (Nat × Int)) (s : State) : Answer :=
  receive l tag (.profileStage sec es) s
/-- PROFILE_COMMIT (R7, R8). -/
def execProfileCommit (l : Link) (tag : Byte) (s : State) : Answer := receive l tag .profileCommit s
/-- PROFILE_ABANDON (R5). -/
def execProfileAbandon (l : Link) (tag : Byte) (s : State) : Answer := receive l tag .profileAbandon s
/-- PROFILE_GET (R6). -/
def execProfileGet (l : Link) (tag : Byte) (sec : Section) (s : State) : Answer := receive l tag (.profileGet sec) s
/-- POSTURE_GET (R14). -/
def execPostureGet (l : Link) (tag : Byte) (s : State) : Answer := receive l tag .postureGet s
/-- CLAIM (R25 to R27). -/
def execClaim (l : Link) (tag : Byte) (gs : List Group) (w : Bool) (gen : Option Generation) (s : State) : Answer :=
  receive l tag (.claim gs w gen) s
/-- RELEASE (R30). -/
def execRelease (l : Link) (tag : Byte) (gs : List Group) (s : State) : Answer := receive l tag (.release gs) s
/-- ROOM_MOVE (R98). -/
def execRoomMove (l : Link) (tag : Byte) (g : Group) (d : Direction) (mode : Mode) (target : Option Int)
    (gen : Option Generation) (s : State) : Answer :=
  receive l tag (.roomMove g d mode target gen) s
/-- ROOM_STOP (R113). -/
def execRoomStop (l : Link) (tag : Byte) (g : Group) (s : State) : Answer := receive l tag (.roomStop g) s
/-- JACK_AUTO (R122, R123). -/
def execJackAuto (l : Link) (tag : Byte) (mode : Mode) (gen : Option Generation) (s : State) : Answer :=
  receive l tag (.jackAuto mode gen) s
/-- JACK_SEEK (R122, R123). -/
def execJackSeek (l : Link) (tag : Byte) (mode : Mode) (gen : Option Generation) (s : State) : Answer :=
  receive l tag (.jackSeek mode gen) s
/-- JACK_JOG (R122, R123). -/
def execJackJog (l : Link) (tag : Byte) (js : List (Fin 6)) (d : JackDir) (mode : Mode) (gen : Option Generation)
    (s : State) : Answer :=
  receive l tag (.jackJog js d mode gen) s
/-- JACK_RETRACT (R122, R123). -/
def execJackRetract (l : Link) (tag : Byte) (mode : Mode) (gen : Option Generation) (s : State) : Answer :=
  receive l tag (.jackRetract mode gen) s
/-- JACK_STOP (R133). -/
def execJackStop (l : Link) (tag : Byte) (s : State) : Answer := receive l tag .jackStop s
/-- AWNING_MOVE (R144). -/
def execAwningMove (l : Link) (tag : Byte) (d : Direction) (mode : Mode) (percent : Option Nat)
    (gen : Option Generation) (s : State) : Answer :=
  receive l tag (.awningMove d mode percent gen) s
/-- AWNING_STOP (R147). -/
def execAwningStop (l : Link) (tag : Byte) (s : State) : Answer := receive l tag .awningStop s
/-- STOP_ALL (R32). -/
def execStopAll (l : Link) (tag : Byte) (s : State) : Answer := receive l tag .stopAll s
/-- HOLD_REFRESH (R195). -/
def execHoldRefresh (l : Link) (tag : Byte) (g : Group) (s : State) : Answer := receive l tag (.holdRefresh g) s
/-- ATTENTION_SET (R193). -/
def execAttentionSet (l : Link) (tag : Byte) (level : Nat) (s : State) : Answer :=
  receive l tag (.attentionSet level) s
/-- LINES_SET (R158). -/
def execLinesSet (l : Link) (tag : Byte) (sel : List (Line × Bool)) (s : State) : Answer :=
  receive l tag (.linesSet sel) s
/-- MAP_WRITE (R166, R167). -/
def execMapWrite (l : Link) (tag : Byte) (line : Line) (fields : List MapField) (s : State) : Answer :=
  receive l tag (.mapWrite line fields) s
/-- MAP_READ (R168). -/
def execMapRead (l : Link) (tag : Byte) (line : Line) (s : State) : Answer := receive l tag (.mapRead line) s
/-- FAULT_GET (R180). -/
def execFaultGet (l : Link) (tag : Byte) (subject : Option Subject) (s : State) : Answer :=
  receive l tag (.faultGet subject) s
/-- FAULT_CLEAR (R181, R182). -/
def execFaultClear (l : Link) (tag : Byte) (subject : Subject) (s : State) : Answer :=
  receive l tag (.faultClear subject) s

end Sys2Proof.Machine
end

