-- ==== Sys2Proof/Machine/ResetCommands.lean ====
section
/-! DEFINITION. POWER_ON_RESET and XRST (R1, R22, R184). -/
namespace Sys2Proof.Machine

/-- POWER_ON_RESET (R22): every unit at its power-on value, the straps and pins as sampled; the commands still waiting
stay in the queue (log 36). -/
def execPowerOnReset (pins : ResetPins) (s : State) : Answer :=
  .next { State.powerOn pins with pending := s.pending }

/-- A present mark of a kept code decided at the end of a reset (R184): ESTOP anew by its input, ROAD_MOTION gone, the
others at their first sample or echo. -/
def decideMark (estop : Bool) (e : FaultCode × Bool) : FaultCode × Bool :=
  match e.1 with
  | .estop => (e.1, estop)
  | .roadMotion => (e.1, false)
  | _ => e

/-- A fault record over XRST (R184): kept field for field, its halt unconfirmed where it is ACTIVE. -/
def keptRecord (estop : Bool) (r : FaultRecord) : FaultRecord :=
  { r with codes := r.codes.map (decideMark estop), confirmed := r.confirmed && r.state != .active }

/-- The range of a sense channel of COACH after XRST (log 16). -/
def keptCoachRange (u : Units) : ChannelRange := if marked (faultOf u .coach) .senseRange then .undecided else .inRange

/-- The range of a jack or tilt channel after XRST (log 16): undecided where it was out of range with its code's mark
kept. -/
def keptJackRange (u : Units) (k : FaultCode) (r : ChannelRange) : ChannelRange :=
  if r != .inRange && marked (faultOf u (.group .jacks)) k then .undecided else .inRange

/-- The measured part after XRST (R22, R61, R149, R184): coach time, heat count and wind hold are kept. -/
def keptMeasured (pins : ResetPins) (s : State) : Measured :=
  { Measured.atReset pins s.m.now with
    heat := s.m.heat
    wind := { hold := s.m.wind.hold, lastWindy := s.m.wind.lastWindy, secondStart := s.m.now }
    vbatRange := keptCoachRange s.u
    ibusRange := keptCoachRange s.u
    pmanRange := keptCoachRange s.u
    pjRange := Vector.ofFn fun j => keptJackRange s.u .pjRange s.m.pjRange[j]
    tiltXRange := keptJackRange s.u .tiltRange s.m.tiltXRange
    tiltYRange := keptJackRange s.u .tiltRange s.m.tiltYRange }

/-- The units after XRST: their reset values, but for the fault table (R184). -/
def keptUnits (pins : ResetPins) (s : State) : Units :=
  { Units.atReset s.m.now with faults := Vector.ofFn fun i => keptRecord pins.estop s.u.faults[i] }

/-- XRST (R1, R184). -/
def execXrst (pins : ResetPins) (s : State) : Answer :=
  .next { pending := s.pending, m := keptMeasured pins s, c := Setup.atReset pins, u := keptUnits pins s }

end Sys2Proof.Machine
end

