-- ==== Sys2Proof/Machine/WindCommands.lean ====
section
/-! DEFINITION. The anemometer and the wind second (R148, R149). -/
namespace Sys2Proof.Machine

/-- The speed a period gives (R148): constant / period held at 200 up to 2000 ms, 0 beyond; the quotient by a period of
0 ms is a free value (log 12). -/
def periodSpeed (constant period : Nat) : Nat :=
  if Config.windPeriodMs < period then 0
  else min 200 (if period = 0 then Config.zeroPeriodSpeed constant else constant / period)

/-- The wind monitor after an anemometer pulse (R148). -/
def windPulse (constant : Nat) (now : CoachTime) (w : WindMonitor) : WindMonitor :=
  match w.lastPulse with
  | none => { w with lastPulse := some now }
  | some t =>
    let v := periodSpeed constant (now - t).toNat
    { w with lastPulse := some now, lastSpeed := some v, speeds := w.speeds ++ [v] }

/-- ANEMOMETER_PULSE (R148). -/
def execAnemometerPulse (s : State) : Answer :=
  .next { s with m := { s.m with wind := windPulse (s.ctx.awningField 4) s.m.now s.m.wind } }

/-- Whether the last pulse lies within the last 2000 ms (R148). -/
def recentPulse (now : CoachTime) (w : WindMonitor) : Bool :=
  w.lastPulse.any fun t => decide ((now - t).toNat ≤ Config.windPeriodMs)

/-- The 1-second average of the second that ends (R148); before the first period it is 0 (log 33). -/
def secondAverage (now : CoachTime) (w : WindMonitor) : Nat :=
  if !w.speeds.isEmpty then w.speeds.sum / w.speeds.length
  else if recentPulse now w then w.lastSpeed.getD 0
  else 0

/-- The second ring after one more second (R149). -/
def pushRing (ring : List Nat) (v : Nat) : List Nat :=
  let r := ring ++ [v]
  r.drop (r.length - Config.windRing)

/-- Whether the wind is a gust or sustained (R149). -/
def windy (gust sustained avg : Nat) (ring : List Nat) : Bool :=
  decide (gust ≤ avg) || (ring.length == Config.windRing && decide (sustained ≤ ring.sum / Config.windRing))

/-- The wind hold after a second (R149). DESIGN CHOICE (log 64): a hold with no last windy second stays SET until one
comes. -/
def nextHold (strong hold : Bool) (lastWindy : Option CoachTime) (holdOff : Nat) (now : CoachTime) : Bool :=
  if strong then true
  else if hold then !dueAt (lastWindy.map fun t => after t holdOff) now
  else false

/-- The wind monitor after a second boundary (R148, R149). -/
def endSecond (x : Ctx) : WindMonitor :=
  let w := x.m.wind
  let avg := secondAverage x.now w
  let ring := pushRing w.ring avg
  let last := if x.awningField 6 ≤ avg then some x.now else w.lastWindy
  { w with
    speeds := []
    ring := ring
    lastWindy := last
    hold := nextHold (windy (x.awningField 5) (x.awningField 6) avg ring) w.hold last x.holdOffMs x.now
    secondStart := after w.secondStart Config.secondMs }

/-- The notice of a hold that ends (R149). -/
def reactSecond (was : Bool) (x : Ctx) (u : Units) : Units :=
  if was && !x.m.wind.hold then offerAll x (.windNotice .holdEnded none) u else u

/-- WIND_SECOND_BOUNDARY (R148, R149); the retract a hold starts is the settlement's (R151). -/
def execWindSecondBoundary (s : State) : Answer :=
  if elapsed s.m.wind.secondStart s.m.now Config.secondMs then
    .next (unitEvent s { s.m with wind := endSecond s.ctx } (reactSecond s.m.wind.hold))
  else .next s

end Sys2Proof.Machine
end

