-- ==== Sys2Proof/Machine/Dispatch.lean ====
section
/-! DEFINITION. The meaning of every command, one arm per constructor of Instr. -/
namespace Sys2Proof.Machine

def exec (i : Instr) (s : State) : Host.Outcome State Fault Refusal :=
  match i with
  | .powerOnReset pins => Sys2Proof.Machine.execPowerOnReset pins s
  | .xrst pins => Sys2Proof.Machine.execXrst pins s
  | .validFrameReceipt l kind tag payload => Sys2Proof.Machine.execValidFrameReceipt l kind tag payload s
  | .crcMismatchDiscard l => Sys2Proof.Machine.execCrcMismatchDiscard l s
  | .lengthDiscard l => Sys2Proof.Machine.execLengthDiscard l s
  | .partialFrameTimeout l => Sys2Proof.Machine.execPartialFrameTimeout l s
  | .lineBreak l => Sys2Proof.Machine.execLineBreak l s
  | .framingError l => Sys2Proof.Machine.execFramingError l s
  | .receiverOverrun l => Sys2Proof.Machine.execReceiverOverrun l s
  | .transmitFrameEnd l => Sys2Proof.Machine.execTransmitFrameEnd l s
  | .silenceDeadline l => Sys2Proof.Machine.execSilenceDeadline l s
  | .ping l tag => Sys2Proof.Machine.execPing l tag s
  | .linkStatus l tag => Sys2Proof.Machine.execLinkStatus l tag s
  | .profileStage l tag sec entries => Sys2Proof.Machine.execProfileStage l tag sec entries s
  | .profileCommit l tag => Sys2Proof.Machine.execProfileCommit l tag s
  | .profileAbandon l tag => Sys2Proof.Machine.execProfileAbandon l tag s
  | .profileGet l tag sec => Sys2Proof.Machine.execProfileGet l tag sec s
  | .postureGet l tag => Sys2Proof.Machine.execPostureGet l tag s
  | .claim l tag groups wait gen => Sys2Proof.Machine.execClaim l tag groups wait gen s
  | .release l tag groups => Sys2Proof.Machine.execRelease l tag groups s
  | .preemptionTimeReached entry => Sys2Proof.Machine.execPreemptionTimeReached entry s
  | .claimWaitDeadline entry => Sys2Proof.Machine.execClaimWaitDeadline entry s
  | .roomMove l tag g d mode target gen => Sys2Proof.Machine.execRoomMove l tag g d mode target gen s
  | .roomStop l tag g => Sys2Proof.Machine.execRoomStop l tag g s
  | .jackAuto l tag mode gen => Sys2Proof.Machine.execJackAuto l tag mode gen s
  | .jackSeek l tag mode gen => Sys2Proof.Machine.execJackSeek l tag mode gen s
  | .jackJog l tag jacks d mode gen => Sys2Proof.Machine.execJackJog l tag jacks d mode gen s
  | .jackRetract l tag mode gen => Sys2Proof.Machine.execJackRetract l tag mode gen s
  | .jackStop l tag => Sys2Proof.Machine.execJackStop l tag s
  | .awningMove l tag d mode percent gen => Sys2Proof.Machine.execAwningMove l tag d mode percent gen s
  | .awningStop l tag => Sys2Proof.Machine.execAwningStop l tag s
  | .stopAll l tag => Sys2Proof.Machine.execStopAll l tag s
  | .holdRefresh l tag g => Sys2Proof.Machine.execHoldRefresh l tag g s
  | .attentionSet l tag level => Sys2Proof.Machine.execAttentionSet l tag level s
  | .linesSet l tag sel => Sys2Proof.Machine.execLinesSet l tag sel s
  | .mapWrite l tag line fields => Sys2Proof.Machine.execMapWrite l tag line fields s
  | .mapRead l tag line => Sys2Proof.Machine.execMapRead l tag line s
  | .faultGet l tag subject => Sys2Proof.Machine.execFaultGet l tag subject s
  | .faultClear l tag subject => Sys2Proof.Machine.execFaultClear l tag subject s
  | .vbatSample v => Sys2Proof.Machine.execVbatSample v s
  | .ibusSample v => Sys2Proof.Machine.execIbusSample v s
  | .pmanSample v => Sys2Proof.Machine.execPmanSample v s
  | .pjSample j v => Sys2Proof.Machine.execPjSample j v s
  | .tiltSample axis v => Sys2Proof.Machine.execTiltSample axis v s
  | .roadSpeedWindowEnd => Sys2Proof.Machine.execRoadSpeedWindowEnd s
  | .estopAsserted => Sys2Proof.Machine.execEstopAsserted s
  | .estopReleased => Sys2Proof.Machine.execEstopReleased s
  | .spdPulse => Sys2Proof.Machine.execSpdPulse s
  | .inSwitchChange n e made => Sys2Proof.Machine.execInSwitchChange n e made s
  | .lockSwitchChange n sw made => Sys2Proof.Machine.execLockSwitchChange n sw made s
  | .jackStowedSwitchChange j made => Sys2Proof.Machine.execJackStowedSwitchChange j made s
  | .awningStowedSwitchChange made => Sys2Proof.Machine.execAwningStowedSwitchChange made s
  | .axisPulse a => Sys2Proof.Machine.execAxisPulse a s
  | .stall a => Sys2Proof.Machine.execStall a s
  | .anemometerPulse => Sys2Proof.Machine.execAnemometerPulse s
  | .windSecondBoundary => Sys2Proof.Machine.execWindSecondBoundary s
  | .lineDebounceChange n level since => Sys2Proof.Machine.execLineDebounceChange n level since s
  | .virtualLineDeadline v => Sys2Proof.Machine.execVirtualLineDeadline v s
  | .periodicFrameStart => Sys2Proof.Machine.execPeriodicFrameStart s
  | .echoReceived e => Sys2Proof.Machine.execEchoReceived e s
  | .echoMissing => Sys2Proof.Machine.execEchoMissing s
  | .pinTimeout n => Sys2Proof.Machine.execPinTimeout n s
  | .roomDwellEnd n => Sys2Proof.Machine.execRoomDwellEnd n s
  | .awningDwellEnd => Sys2Proof.Machine.execAwningDwellEnd s
  | .holdDeadlineExpiry g => Sys2Proof.Machine.execHoldDeadlineExpiry g s
  | .seekTimeout => Sys2Proof.Machine.execSeekTimeout s
  | .settleEnd => Sys2Proof.Machine.execSettleEnd s
  | .liftDeadline => Sys2Proof.Machine.execLiftDeadline s
  | .retractTimeout => Sys2Proof.Machine.execRetractTimeout s
  | .switchingEnd => Sys2Proof.Machine.execSwitchingEnd s
  | .heatRise => Sys2Proof.Machine.execHeatRise s
  | .heatFall => Sys2Proof.Machine.execHeatFall s
  | .byteReceived l b => Sys2Proof.Machine.execByteReceived l b s

end Sys2Proof.Machine
end

