-- ==== Sys2Proof/Machine/Idle.lean ====
section
/-! DEFINITION. What the block does with no command waiting (log 1). -/
namespace Sys2Proof.Machine

/-- One millisecond of coach time passes (R22; log 1). -/
def idleTick (s : State) : State := { s with m := { s.m with now := s.m.now + 1 } }

end Sys2Proof.Machine
end

