-- ==== Sys2Proof/WellFormed.lean ====
section
/-! DEFINITION. Which commands are well formed: operands that a frame, an echo or an input can carry. A command that is
not well formed still has a meaning; nothing outside can send it. -/
namespace Sys2Proof

/-! ## Requests -/

/-- The eight groups in number order, the form in which a group set is read from its byte (R191). -/
def groupOrder : List Group := [.room 0, .room 1, .room 2, .room 3, .room 4, .room 5, .jacks, .awning]

/-- A group set in its one form: number order, no group twice. -/
def groupSetWf (gs : List Group) : Bool := gs == groupOrder.filter gs.contains

/-- A jog set in its one form: number order, no jack twice. -/
def jogSetWf (js : List (Fin 6)) : Bool := js == (List.finRange 6).filter js.contains

/-- A value of two signed bytes (R191). -/
def fitsI16 (v : Int) : Bool := decide (-32768 ≤ v ∧ v < 32768)

/-- A value of four signed bytes (R191). -/
def fitsI32 (v : Int) : Bool := decide (-2147483648 ≤ v ∧ v < 2147483648)

/-- The bytes one field entry of a MAP_WRITE takes (R191). -/
def fieldWidth : MapField → Nat
  | .debounce _ => 3
  | .action _ => 4
  | _ => 2

/-- A field of a MAP_WRITE whose value its bytes can hold. -/
def fieldWf : MapField → Bool
  | .debounce ms => decide (ms < 65536)
  | _ => true

/-- A request whose parameters a payload of at most 56 bytes carries (R187, R191). -/
def Request.wf : Request → Bool
  | .profileStage _ es => decide (es.length ≤ 11) && es.all fun e => decide (e.1 < 256) && fitsI32 e.2
  | .claim gs _ _ => groupSetWf gs
  | .release gs => groupSetWf gs
  | .roomMove _ _ _ t _ => t.all fitsI16
  | .jackJog js _ _ _ => jogSetWf js
  | .awningMove _ _ p _ => p.all fun v => decide (v < 65536)
  | .attentionSet v => decide (v < 256)
  | .linesSet sel => decide (sel.length ≤ 28)
  | .mapWrite _ fs => decide ((fs.map fieldWidth).sum ≤ 55) && fs.all fieldWf
  | .malformed _ | .unnamed _ => false
  | _ => true

/-- The link, the TAG and the request of a request row; none for every other row. -/
def Instr.request? : Instr → Option (Link × Byte × Request)
  | .ping l t => some (l, t, .ping)
  | .linkStatus l t => some (l, t, .linkStatus)
  | .profileStage l t sec es => some (l, t, .profileStage sec es)
  | .profileCommit l t => some (l, t, .profileCommit)
  | .profileAbandon l t => some (l, t, .profileAbandon)
  | .profileGet l t sec => some (l, t, .profileGet sec)
  | .postureGet l t => some (l, t, .postureGet)
  | .claim l t gs w g => some (l, t, .claim gs w g)
  | .release l t gs => some (l, t, .release gs)
  | .roomMove l t r d m p g => some (l, t, .roomMove r d m p g)
  | .roomStop l t r => some (l, t, .roomStop r)
  | .jackAuto l t m g => some (l, t, .jackAuto m g)
  | .jackSeek l t m g => some (l, t, .jackSeek m g)
  | .jackJog l t js d m g => some (l, t, .jackJog js d m g)
  | .jackRetract l t m g => some (l, t, .jackRetract m g)
  | .jackStop l t => some (l, t, .jackStop)
  | .awningMove l t d m p g => some (l, t, .awningMove d m p g)
  | .awningStop l t => some (l, t, .awningStop)
  | .stopAll l t => some (l, t, .stopAll)
  | .holdRefresh l t g => some (l, t, .holdRefresh g)
  | .attentionSet l t v => some (l, t, .attentionSet v)
  | .linesSet l t sel => some (l, t, .linesSet sel)
  | .mapWrite l t line fs => some (l, t, .mapWrite line fs)
  | .mapRead l t line => some (l, t, .mapRead line)
  | .faultGet l t subject => some (l, t, .faultGet subject)
  | .faultClear l t subject => some (l, t, .faultClear subject)
  | _ => none

/-! ## Echoes -/

/-- A motor value a channel can carry: a duty of at most 100 % (R76). -/
def motorWf (v : Motor) : Bool := decide (v.duty ≤ 100)

/-- An image whose motors all carry a duty. -/
def imageWf (i : Image) : Bool := i.motorA.all motorWf && i.motorB.all motorWf && motorWf i.awningMotor

/-- An echo: values, no channel's trip flag twice, no channel on two boards (R80). -/
def echoWf (e : Echo) : Bool :=
  imageWf e.latched && decide e.trips.Nodup && decide (e.boards.flatMap (·.channels)).Nodup

/-! ## Commands -/

/-- A command whose operands the outside can send. -/
def Instr.wf (i : Instr) : Bool :=
  match i with
  | .validFrameReceipt _ _ _ payload => decide (payload.length ≤ 56)
  | .echoReceived e => echoWf e
  | i =>
    match i.request? with
    | some (_, _, q) => q.wf
    | none => true

end Sys2Proof
end

