-- ==== Sys2Proof/Safety.lean ====
section
/-! DEFINITION. What a safe state of the block is, in the terms the statements use: ports that have sent what they can,
queues within their bounds, outputs disabled while the coach is halted, measurements within their ranges. -/
namespace Sys2Proof.Safety
open Sys2Proof.Machine

/-! ## Ports -/

/-- Nothing waits to be sent while a transmitter is free, at one desk (R190). -/
def deskSettled (d : Desk) : Prop :=
  ∀ l : Link, (d.c.ports[linkIdx l]).sending = none →
    (d.u.out[linkIdx l]).line = [] ∧ (d.u.out[linkIdx l]).notices = []

/-- Nothing waits to be sent while a transmitter is free (R190). -/
def portsSettled (s : State) : Prop := deskSettled s.desk

/-- No request waits in a receive queue. -/
def noRequestWaits (c : Setup) : Prop := ∀ l : Link, (c.ports[linkIdx l]).rx = []

/-- A receive queue holds at most four requests, a notice queue at most sixteen notices (R188, R192). -/
def queuesBounded (s : State) : Prop :=
  ∀ l : Link, (s.c.ports[linkIdx l]).rx.length ≤ Config.rxMax
    ∧ (s.u.out[linkIdx l]).notices.length ≤ Config.noticeMax

/-! ## Budget -/

/-- The admissions fit the limit (R49), and what keeps them so: each consumer stands once in the admission list and the
wait queue together (R50), and what AWNING may draw is within the reserve held for it (R12). -/
def budgetWithin (x : Ctx) (u : Units) : Prop :=
  (u.admissions.map (·.consumer) ++ u.budgetQueue.map (·.consumer)).Nodup
  ∧ ((u.admissions.filter fun a => a.consumer != .awning).map (·.allocation)).sum ≤ x.m.bLim - reserve x
  ∧ (u.admissions.map (·.allocation)).sum ≤ x.m.bLim
  ∧ (∀ a ∈ u.admissions, a.consumer = .awning → a.allocation ≤ reserve x)
  ∧ (∀ w ∈ u.budgetQueue, w.consumer = .awning → w.allocation ≤ reserve x)
  ∧ allocation x .awning ≤ reserve x

/-- Nothing moves, waits or draws: no motion and no internal retract, both budget collections empty, no turn and no
manifold queue. -/
def atRest (u : Units) : Prop :=
  (∀ g, motionRequester u g = none) ∧ u.awning.retract = none ∧ u.admissions = [] ∧ u.budgetQueue = []
  ∧ u.manifold.user = none ∧ u.manifold.queue = []

/-- The block is at rest before the commit, and its admissions fit the limit after it (R2, R12, R49). -/
def budgetSettled (s : State) : Prop :=
  match s.c.phase with
  | .config => atRest s.u
  | .run => budgetWithin s.ctx s.u

/-! ## Halts -/

/-- CHAIN_EN is low while the COACH record is ACTIVE (R83, R175). -/
def chainLowWhileActive (s : State) : Prop := coachActive s.u = true → s.u.chainEn = false

/-! ## Measurements -/

/-- A count lies in the range of a counter (R86). -/
def countInRange (k : Counter) : Prop := -32768 ≤ k.count ∧ k.count ≤ 32767

/-- The wind monitor's speeds and ring lie within their bounds (R148, R149). -/
def windInBounds (w : WindMonitor) : Prop :=
  (∀ v ∈ w.speeds, v ≤ 200) ∧ (∀ v ∈ w.lastSpeed, v ≤ 200) ∧ w.ring.length ≤ Config.windRing

/-- Every measured value lies within the bounds its rule sets (R15, R69, R80, R86, R126, R148, R149). -/
def measuredInBounds (m : Measured) : Prop :=
  (∀ a : Axis, countInRange (m.counter a)) ∧ m.heat ≤ Config.heatMax ∧ m.mismatch ≤ 1 ∧ m.roadSpeed ≤ 150
    ∧ m.tiltX.length ≤ Config.tiltRow ∧ m.tiltY.length ≤ Config.tiltRow ∧ windInBounds m.wind

/-! ## Reading a state -/

/-- A port's receiving part. -/
abbrev inPort (s : State) (l : Link) : PortIn := s.c.ports[linkIdx l]

/-- A port's outgoing part. -/
abbrev outPort (s : State) (l : Link) : PortOut := s.u.out[linkIdx l]

/-- The units with one port's outgoing part replaced, everything else as it was. -/
abbrev withOut (u : Units) (l : Link) (p : PortOut) : Units := { u with out := u.out.set (linkIdx l) p }

/-- The setup part with one port's receiving part replaced, everything else as it was. -/
abbrev withIn (c : Setup) (l : Link) (p : PortIn) : Setup := { c with ports := c.ports.set (linkIdx l) p }

/-- The state with one port's receiving part replaced, everything else as it was. -/
abbrev withPort (s : State) (l : Link) (p : PortIn) : State := { s with c := withIn s.c l p }

/-- Whether a code stands in a subject's record, present or not (R171). -/
def codeStands (s : Subject) (k : FaultCode) (u : Units) : Prop := (faultOf u s).codes.any (fun e => e.1 == k) = true

/-- The setup part is the same but for the frames the transmitters took up. -/
def onlyTransmitters (c e : Setup) : Prop :=
  { e with ports := c.ports } = c
    ∧ ∀ l : Link, { e.ports[linkIdx l] with sending := (c.ports[linkIdx l]).sending } = c.ports[linkIdx l]

/-- The requester and the mode of a group's motion, if it has one. -/
def motionOwner (u : Units) : Group → Option (Requester × Mode)
  | .room n => u.rooms[n].motion.map fun m => (m.requester, m.mode)
  | .jacks => u.jacks.motion.map fun m => (m.requester, m.mode)
  | .awning => u.awning.motion.map fun m => (m.requester, m.mode)

/-- Whether another link owns the staging area (R4, R5). -/
def stagedByAnother (c : Setup) (l : Link) : Prop := ∃ o, c.owner = some o ∧ o ≠ l

/-- Every field of a profile lies in its range and keeps its relation (R9 to R13): a ROOM n or AWNING section that is
not present in its present field alone. -/
def profileValid (st : Straps) (p : Slots) : Prop :=
  let holds := fun (sec : Section) (i : Nat) (ok : Int → Prop) => ∃ v, p.slot sec i = some v ∧ ok v
  let field := fun (sec : Section) (i : Nat) (lo hi : Int) => holds sec i fun v => lo ≤ v ∧ v ≤ hi
  let v := fun (sec : Section) (i : Nat) => p.int sec i
  (field .general 0 500 3000 ∧ field .general 3 200 1500 ∧ field .general 4 1500 2500 ∧ field .general 5 1000 20000
    ∧ (if st.supply24 then field .general 1 2000 2900 ∧ field .general 2 1800 2850
      else field .general 1 1000 1450 ∧ field .general 2 900 1400)
    ∧ v .general 2 ≤ v .general 1 - 50
    ∧ (holds .general 6 fun r => ∃ a b c : Int, [a, b, c].Perm [0, 1, 2] ∧ r = a + 256 * b + 65536 * c)
    ∧ field .general 7 0 1)
  ∧ (∀ n : Fin 6, field (.room n) 0 0 1 ∧ (p.slot (.room n) 0 = some 1 →
      field (.room n) 1 0 1 ∧ field (.room n) 2 0 1 ∧ field (.room n) 3 0 1
      ∧ (v (.room n) 3 = 1 → v (.room n) 2 = 0 ∧ p.slot .awning 0 = some 1)
      ∧ field (.room n) 4 0 1 ∧ field (.room n) 5 100 20000
      ∧ (v (.room n) 1 = 1 → field (.room n) 6 50 600 ∧ field (.room n) 10 5 200 ∧ field (.room n) 11 20 500
        ∧ v (.room n) 10 < v (.room n) 11)
      ∧ (v (.room n) 4 = 1 → field (.room n) 7 5 80)
      ∧ field (.room n) 8 100 2000 ∧ field (.room n) 9 0 2000 ∧ 2 * v (.room n) 9 ≤ v (.room n) 5
      ∧ field (.room n) 12 0 1))
  ∧ (holds .jacks 0 (fun k => k = if st.jacks6 then 6 else 4) ∧ field .jacks 1 50 600 ∧ field .jacks 2 500 30000
    ∧ field .jacks 3 5 60 ∧ field .jacks 4 10 120 ∧ field .jacks 5 5 100)
  ∧ (field .awning 0 0 1 ∧ (p.slot .awning 0 = some 1 →
      field .awning 1 100 20000 ∧ field .awning 2 30 400
      ∧ (p.slot .awning 3 = none ∨ (field .awning 3 30 600 ∧ v .awning 2 ≤ v .awning 3))
      ∧ field .awning 4 100 60000 ∧ field .awning 5 20 80 ∧ field .awning 6 15 60 ∧ v .awning 6 ≤ v .awning 5
      ∧ field .awning 7 5 60))
  ∧ (field .timing 0 100 1000 ∧ field .timing 1 1000 10000 ∧ field .timing 2 5 120
    ∧ (holds .timing 3 fun t => t = 0 ∨ (5 ≤ t ∧ t ≤ 60)) ∧ field .timing 4 500 5000)
  ∧ (field .lines 0 0 15 ∧ field .lines 1 0 1 ∧ field .lines 2 0 15 ∧ v .lines 2 ≠ v .lines 0 ∧ field .lines 3 0 1)

/-! ## Resets -/

/-- What both resets leave, with the reset ending at coach time `now` and the pins reading `pins`: everything but the
heat count, the wind hold, the ranges of the sense channels and the fault records, which XRST keeps. -/
structure ResetValues (pins : ResetPins) (now : CoachTime) (t : State) : Prop where
  coachTime : t.m.now = now
  straps : t.m.straps = { jacks6 := pins.jacks6, supply24 := pins.supply24 }
  chassis : t.m.estop = pins.estop ∧ t.m.roadSpeed = 0 ∧ t.m.spdCount = 0 ∧ t.m.windowStart = now
  limit : t.m.bLim = (if pins.supply24 then 1000 else 1500) ∧ t.m.undervolt = none
  pressure : t.m.overpressure = none ∧ ∀ j : Fin 6, t.m.pjLast[j] = none
  chain : t.m.lastEcho = none ∧ t.m.mismatch = 0
  counters : (∀ n : Fin 6, t.m.counterA[n] = { count := 0, valid := pins.inSwitchA[n], lastPulse := none }
    ∧ t.m.counterB[n] = { count := 0, valid := pins.inSwitchB[n], lastPulse := none }
    ∧ t.m.counterJ[n] = { count := 0, valid := pins.jackStowed[n], lastPulse := none })
    ∧ t.m.counterAw = { count := 0, valid := pins.awningStowed, lastPulse := none }
  switches : (∀ n : Fin 6, t.m.roomSw[n] = { inA := pins.inSwitchA[n], inB := pins.inSwitchB[n]
                                             engaged := pins.pinEngaged[n], withdrawn := pins.pinWithdrawn[n] })
    ∧ t.m.jackStowed = pins.jackStowed ∧ t.m.awningStowed = pins.awningStowed
  tilt : t.m.tiltX = [] ∧ t.m.tiltY = []
  wind : t.m.wind.lastPulse = none ∧ t.m.wind.lastSpeed = none ∧ t.m.wind.speeds = [] ∧ t.m.wind.ring = []
    ∧ t.m.wind.secondStart = now
  profile : t.c.phase = .config ∧ t.c.owner = none ∧ t.c.profile = none
    ∧ t.c.staging = initialSlots { jacks6 := pins.jacks6, supply24 := pins.supply24 }
  inputs : t.c.parkSet = false ∧ t.c.ignOn = false
  wired : ∀ n : Fin 16, t.c.wired[n] =
    { polarity := .activeHigh, debounce := 30, level := pins.lines[n], timing := none
      map := { trigger := .edge, mask := .masked, action := .none, route := .leastAttention, inService := false } }
  virtual : ∀ n : Fin 8, t.c.virt[n] =
    { value := false, writer := none, deadline := none
      map := { trigger := .edge, mask := .masked, action := .none, route := .leastAttention, inService := false } }
  ports : ∀ l, inPort t l =
      { linked := false, silence := none, rx := [], attention := false, level := 0, part := none, sending := none
        tallies := { crc := 0, length := 0, framing := 0, overrun := 0, truncated := 0 } }
    ∧ outPort t l = { line := [], notices := [], lostFlag := false, lostCount := 0 }
  claims : t.u.generation = 0 ∧ (∀ g, claimOf t.u g = none) ∧ t.u.waitList = []
  budget : t.u.admissions = [] ∧ t.u.budgetQueue = [] ∧ t.u.overload = none
  manifold : t.u.manifold = { state := .idle, user := none, queue := [], switchingEnd := none, heatStart := now }
  outputs : t.u.image = { pump := false, diverter := .room } ∧ imageAllOff t.u.image = true ∧ t.u.chainEn = false
    ∧ ∀ a, t.u.driveOn[axisIdx a] = none
  frames : t.u.flight = none ∧ t.u.changePending = false ∧ t.u.frameStart = now
  groups : (∀ n : Fin 6, t.u.rooms[n] =
      { state := .unknown, motion := none, rampA := 0, rampB := 0, syncHold := none })
    ∧ (t.u.jacks.state = .unknown ∧ t.u.jacks.motion = none ∧ t.u.jacks.drift = none
      ∧ ∀ j : Fin 6, t.u.jacks.fault[j] = false)
    ∧ t.u.awning = { state := .unknown, motion := none, retract := none, ignitionMark := false, ramp := 0 }
  marks : ∀ l, t.u.pendingMarks[lineIdx l] = false
  clears : t.u.heldClears = []

/-! ## How motions end -/

/-- Link l is one that LEAST_ATTENTION chooses (R193): of the LINKED links with attention enabled the one of the lowest
level, then of the lowest number; with none, every link. -/
def leastChooses (x : Ctx) (l : Link) : Prop :=
  let open' := fun k => x.linked k = true ∧ (x.port k).attention = true
  (∀ k, ¬ open' k) ∨ (open' l ∧ ∀ k, open' k →
    (x.port l).level < (x.port k).level ∨ ((x.port l).level = (x.port k).level ∧ linkIdx l ≤ linkIdx k))

/-- Link l is one that a notice of a motion goes to: its requester, or of WL's motion a link of the route kept with it
(R97, R121, R143). -/
def addressed (x : Ctx) (q : Requester) (r : Route) (l : Link) : Prop :=
  match q, r with
  | .link k, _ => k = l
  | .wl, .leastAttention => leastChooses x l
  | .wl, .links a b c => (match l with | .ml0 => a | .ml1 => b | .ml2 => c) = true

/-- A notice has been offered to link l in the present event: if it is LINKED the notice waits there, or the queue is
full and the lost flag is set (R192). -/
def offeredTo (x : Ctx) (l : Link) (b : NoticeBody) (v : Units) : Prop :=
  x.linked l = true → (∃ n ∈ (v.out[linkIdx l]).notices, n.stamp = x.now ∧ n.body = b)
    ∨ (16 ≤ (v.out[linkIdx l]).notices.length ∧ (v.out[linkIdx l]).lostFlag = true)

/-- The requester of a group's motion and the route kept with it, if it has one. -/
def motionSender (u : Units) : Group → Option (Requester × Route)
  | .room n => u.rooms[n].motion.map fun m => (m.requester, m.route)
  | .jacks => u.jacks.motion.map fun m => (m.requester, m.route)
  | .awning => u.awning.motion.map fun m => (m.requester, m.route)

/-- The outputs of a group are off: motors NONE and 0, valves and the solenoid OFF (R97, R121, R143). -/
def outputsOff (g : Group) (v : Units) : Prop :=
  match g with
  | .room n => v.image.motorA[n] = { dir := .none, duty := 0 } ∧ v.image.motorB[n] = { dir := .none, duty := 0 }
      ∧ v.image.roomValve[n] = .off ∧ v.image.pin[n] = false
  | .jacks => ∀ j : Fin 6, v.image.jackValve[j] = .off
  | .awning => v.image.awningMotor = { dir := .none, duty := 0 }

/-- A group draws on nothing in units `v`: no consumer of it stands in either budget collection, and it neither has the
turn nor waits for one (R52, R65, R67). The turn is spoken of where units `u` before gave the group the turn, if at all,
in a manifold that runs a turn and with no second place in the queue. -/
def drawsNothing (g : Group) (u v : Units) : Prop :=
  let free := fun k : Consumer => (∀ a ∈ v.admissions, a.consumer ≠ k) ∧ ∀ b ∈ v.budgetQueue, b.consumer ≠ k
  (∀ n, g = .room n → free (.drive n) ∧ free (.pin n)) ∧ (g = .awning → free .awning)
  ∧ ∀ who ∈ groupUser g,
    (u.manifold.user = some who →
      u.manifold.state ≠ .idle ∧ u.manifold.state ≠ .cooling ∧ ∀ w ∈ u.manifold.queue, w.user ≠ who) →
    v.manifold.user ≠ some who ∧ ∀ w ∈ v.manifold.queue, w.user ≠ who

/-- What the end of a group's motion with a result leaves: its outputs off, nothing drawn, no motion record, and
MOTION_DONE with the result and the position offered to the links it goes to (R97, R121, R143). -/
def motionEnded (x : Ctx) (g : Group) (res : MotionResult) (u v : Units) : Prop :=
  outputsOff g v ∧ drawsNothing g u v ∧ motionRequester v g = none
  ∧ ∀ q ∈ motionSender u g, ∀ l, addressed x q.1 q.2 l → offeredTo x l (.motionDone g res (x.position g)) v

/-- What the stop procedure of a group's motion with a result leaves (R112, R133, R147): the motion ended and the group
in its state after a stop; a room at its in-switch whose lock is not ENGAGED is in PINNING instead, with the result
pending and a new pin deadline (R105). Of a room in PIN_ENGAGE already it says nothing. -/
def stopLeaves (x : Ctx) (g : Group) (res : MotionResult) (u v : Units) : Prop :=
  match g with
  | .room n => ∀ mo ∈ u.rooms[n].motion, mo.step ≠ .pinEngage →
      if x.roomIn n = true ∧ x.locked n = true ∧ x.lockState n ≠ .engaged then
        outputsOff g v ∧ drawsNothing g u v ∧ v.rooms[n].state = .pinning
        ∧ v.rooms[n].motion = some { mo with
            step := .pinEngage, pending := some res, pinDeadline := some (x.now + BitVec.ofNat 32 (x.timing 4))
            dwellEnd := none, lostDrive := false, lostPin := false, lostTurn := false }
      else motionEnded x g res u v ∧ v.rooms[n].state = x.roomStopped n
  | .jacks => u.jacks.motion.isSome = true → motionEnded x g res u v ∧ v.jacks.state = x.jacksSettled
  | .awning => u.awning.motion.isSome = true → motionEnded x g res u v ∧ v.awning.state = x.awningSettled

/-- A room in PIN_ENGAGE that a stop leaves as it is (R105). -/
def engaging (u : Units) (g : Group) : Prop := ∃ n, g = .room n ∧ ∃ mo ∈ u.rooms[n].motion, mo.step = .pinEngage

/-- The claim of a group after its motion ended or not: gone if it was TRANSIENT or marked and no motion is left, else
as it was (R29, R31). -/
def claimFollowsMotion (g : Group) (u v : Units) : Prop :=
  claimOf v g = if (motionRequester u g).isSome = true ∧ motionRequester v g = none
      ∧ (∃ c ∈ claimOf u g, c.kind = .transient ∨ c.mark = true) then none else claimOf u g

/-- What a RELEASE leaves of a group that link l held (R30, R31, R105): without a motion of the link the claim is gone;
with one the motion is stopped with result STOPPED, and the claim is gone with it; where the motion finishes PIN_ENGAGE
first, STOPPED is pending and the claim is marked. -/
def releaseLeaves (x : Ctx) (l : Link) (g : Group) (u v : Units) : Prop :=
  (motionRequester u g ≠ some (.link l) → claimOf v g = none ∧ motionRequester v g = motionRequester u g)
  ∧ (motionRequester u g = some (.link l) → stopLeaves x g .stopped u v
      ∧ (∀ n, g = .room n → ∀ mo ∈ u.rooms[n].motion, mo.step = .pinEngage →
          v.rooms[n] = { u.rooms[n] with motion := some { mo with pending := some .stopped } })
      ∧ claimOf v g = if motionRequester v g = none then none else (claimOf u g).map fun c => { c with mark := true })

/-- The entry at place i of the wait list cannot be granted (R35): a missing group of it is claimed, or an older entry
names one. -/
def waitBlocked (u : Units) (i : Nat) (e : WaitEntry) : Prop :=
  ∃ g ∈ e.missing, (claimOf u g).isSome = true ∨ ∃ o ∈ u.waitList.take i, g ∈ o.missing

/-! ## Motions updated and reversed -/

/-- The claim of a group with its release mark cleared, in units `u` (R28). -/
abbrev unmarked (g : Group) (u : Units) : Units :=
  { u with claims := u.claims.set (groupIdx g) ((claimOf u g).map fun c => { c with mark := false }) }

/-- What a reversal of room n leaves, by the step it finds (R108): `w` are the units with the running motion reported
SUPERSEDED and the claim unmarked, `mo` is the new record, its step still the one found, `v` is what is left. DEDUCED:
in DRIVE the sync hold is cleared (log 42); to IN in DRIVE_WAIT at the in-switch without a lock the drive is asked for
(log 43); a room that goes to PINNING while PUMP waits for its turn gives PUMP up with its own consumers (log 76). -/
def roomReversed (x : Ctx) (n : Fin 6) (mo : RoomMotion) (w v : Units) : Prop :=
  let dwell := some (x.now + 500#32)
  let driving := match mo.dir with | .outward => RoomState.extending | .inward => .retracting
  let room := w.rooms[n]
  let pinOff : Image := { w.image with pin := w.image.pin.set n false }
  let consumers := [.drive n, .pin n] ++
    if w.manifold.user = some (.room n) ∧ w.manifold.state = .awaitBudget then [Consumer.pump] else []
  let engage := v = leaveManifold x (.room n) (giveUp x consumers { w with
    image := pinOff
    rooms := w.rooms.set n { room with
      state := .pinning
      motion := some { mo with
        step := .pinEngage, pending := none, pinDeadline := some (x.now + BitVec.ofNat 32 (x.timing 4)), dwellEnd := none
        lostDrive := false, lostPin := false, lostTurn := false } } })
  let withdraw := fun m : RoomMotion =>
    v = pinWithdraw x n { w with rooms := w.rooms.set n { room with motion := some m } }
  match mo.step with
  | .drive => v = giveUp x [.pin n] { w with
      image := { pinOff with
        motorA := w.image.motorA.set n { w.image.motorA[n] with duty := 0 }
        motorB := w.image.motorB.set n { w.image.motorB[n] with duty := 0 }
        roomValve := w.image.roomValve.set n .off }
      rooms := w.rooms.set n { room with
        state := driving, syncHold := none
        motion := some { mo with step := .dwell, dwellEnd := dwell, pinDeadline := none, lostPin := false } } }
  | .dwell => v = { w with rooms := w.rooms.set n { room with state := driving, motion := some mo } }
  | .pause => v = giveUp x [.pin n] { w with
      image := pinOff
      rooms := w.rooms.set n { room with
        motion := some { mo with dwellEnd := dwell, pinDeadline := none, lostPin := false } } }
  | .pinWait | .unpin => engage
  | .driveWait =>
    if x.roomIn n = true ∧ x.locked n = true then
      match mo.dir with
      | .outward => withdraw mo
      | .inward => engage
    else v = driveRequest x n (giveUp x [.pin n] { w with
      image := pinOff
      rooms := w.rooms.set n { room with motion := some { mo with pinDeadline := none, lostPin := false } } })
  | .pinEngage => withdraw { mo with pinDeadline := none }

/-- What an update of a jack operation leaves (R123): the new mode and hold source, and of a jog the new jog set, with
the valves of the jacks that leave it OFF and, in the JOG step, of those that join it in the direction unless they
stand at their limit. -/
def jacksUpdated (x : Ctx) (k : JackAsk) (h : HoldSource) (r : Route) (mo : JackMotion) (u : Units) : Units :=
  let limit := fun j : Fin 6 => match k.dir with
    | .down => decide (x.maxStroke ≤ (x.m.counterJ[j]).count)
    | .up => x.m.jackStowed[j]
  let valve := fun j : Fin 6 =>
    if j ∈ k.set then
      (if j ∈ mo.jogSet then u.image.jackValve[j]
       else if limit j then .off else match k.dir with | .up => .up | .down => .down)
    else if j ∈ mo.jogSet then .off else u.image.jackValve[j]
  { unmarked .jacks u with
    jacks := { u.jacks with motion := some { mo with
      mode := k.mode, hold := h, route := r, jogSet := if k.kind = .jog then k.set else mo.jogSet } }
    image := if k.kind = .jog ∧ mo.step = .jog then { u.image with jackValve := Vector.ofFn valve } else u.image }

/-! ## Pulses and switches at the writing units -/

/-- A motor whose duty is written anew as its axis enters or leaves its slow zone: a running one at its shaped duty, one
at duty 0 as it is (R77, R88, R89). -/
def reshaped (was slow : Bool) (ramp now : CoachTime) (v : Motor) : Motor :=
  if was = slow ∨ v.duty = 0 then v else { v with duty := shapedDuty slow ramp now }

/-- What a counted pulse of end e of room n does at the units `u` (R89 to R91, R103): `x0` and `x` are the contexts
before and after the count, `w` the units before the settlement of the event. A lead above the fault limit, with both
counters VALID or both INVALID, raises SYNC. Otherwise end e of an extend at its end position is stopped, and no other
end by this pulse (log 75, DESIGN CHOICE), the other end free of any sync hold, at its shaped duty with no new ramp (log
48, DEDUCED); the pin is released once every driven end stands at 100 or beyond; with both ends driven one way a lead
above the window holds the leading end, and a lead of at most half the window lets the held end go. -/
def roomPulseLeaves (x0 x : Ctx) (n : Fin 6) (e : RoomEnd) (u w : Units) : Prop :=
  let motor := fun (v : Units) (k : RoomEnd) => match k with | .a => v.image.motorA[n] | .b => v.image.motorB[n]
  let ramp := fun k : RoomEnd => match k with | .a => u.rooms[n].rampA | .b => u.rooms[n].rampB
  let other := fun k : RoomEnd => match k with | .a => RoomEnd.b | .b => .a
  let way := if (motor u .a).dir = .none then (motor u .b).dir else (motor u .a).dir
  let same := (x.m.counterA[n]).valid = (x.m.counterB[n]).valid
  let lead := (x.endCount n .a - x.endCount n .b).natAbs
  let leader := if way = .inward then (if x.endCount n .a < x.endCount n .b then RoomEnd.a else .b)
    else if x.endCount n .b < x.endCount n .a then .a else .b
  let fault := x.electric n = true ∧ way ≠ .none ∧ same ∧ x.roomField n 11 < lead
  let driving := ∃ mo ∈ u.rooms[n].motion, mo.step = .drive ∧ mo.pinDeadline = none
  let extends' := ∃ mo ∈ u.rooms[n].motion, mo.step = .drive ∧ mo.pinDeadline = none ∧ mo.dir = .outward
  let ends := ∃ mo ∈ u.rooms[n].motion, mo.step = .drive ∧ mo.pinDeadline = none ∧ mo.dir = .outward
    ∧ mo.target.getD (x.roomStroke n) ≤ x.endCount n e
  let held := u.rooms[n].syncHold
  let both := x.electric n = true ∧ (motor u .a).dir ≠ .none ∧ (motor u .a).dir = (motor u .b).dir ∧ same
  let shaped := fun k : RoomEnd =>
    if k = e then reshaped (x0.roomSlow n k) (x.roomSlow n k) (ramp k) x.now (motor u k) else motor u k
  let running := fun k : RoomEnd => { motor u k with duty := shapedDuty (x.roomSlow n k) (ramp k) x.now }
  let enters := both ∧ held = none ∧ x.roomField n 10 < lead
  let frees := both ∧ held.isSome = true ∧ lead ≤ x.roomField n 10 / 2
  let driven := fun k : RoomEnd => governed x w (.roomEnd n k) ≠ 0
  let drops := (∃ a ∈ u.admissions, a.consumer = .pin n) ∧ extends' ∧ (∃ k ∈ x.ends n, driven k)
    ∧ ∀ k ∈ x.ends n, driven k → 100 ≤ x.endCount n k
  (fault → x.roomPresent n = true → codeStands (.group (.room n)) .sync w)
  ∧ (¬ fault →
    (ends → x.electric n = true → motor w e = { dir := .none, duty := 0 } ∧ w.rooms[n].syncHold = none
      ∧ motor w (other e) = if held = some (other e) ∧ (motor u (other e)).dir ≠ .none then running (other e)
          else motor u (other e))
    ∧ (ends → x.electric n = false → w.image.roomValve[n] = .off)
    ∧ (¬ ends → w.image.roomValve[n] = u.image.roomValve[n]
      ∧ (enters → w.rooms[n].syncHold = some leader ∧ motor w leader = { motor u leader with duty := 0 }
        ∧ motor w (other leader) = shaped (other leader))
      ∧ (frees → w.rooms[n].syncHold = none ∧ ∀ k ∈ held,
        (driving → motor w k = running k) ∧ (¬ driving → motor w k = shaped k)
        ∧ motor w (other k) = shaped (other k))
      ∧ (¬ enters → ¬ frees → w.rooms[n].syncHold = held ∧ ∀ k, motor w k = shaped k))
    ∧ (drops → w.image.pin[n] = false ∧ ∀ a ∈ w.admissions, a.consumer ≠ .pin n)
    ∧ (¬ drops → w.image.pin = u.image.pin ∧ w.admissions = u.admissions))

/-- What a counted pulse of jack j does at the units (R125): at the max stroke without CONTACT, its valve DOWN in a
SEEK or RESEEK step, it raises NO_GROUND, and it does nothing else. -/
def jackPulseLeaves (x : Ctx) (j : Fin 6) (u w : Units) : Prop :=
  let lost := (∃ mo ∈ u.jacks.motion, mo.step = .seek ∨ mo.step = .reseek) ∧ u.image.jackValve[j] = .down
    ∧ x.maxStroke ≤ (x.m.counterJ[j]).count ∧ x.contact j = false
  (lost → x.c.phase = .run → codeStands (.group .jacks) .noGround w) ∧ (¬ lost → w = u)

/-- What a counted pulse of the awning does at the units (R89, R145, R154): a VALID count that comes to stand above the
stroke plus 50 raises STALL; otherwise an OUT drive step at its end position has its motor written NONE and 0, and the
motor's duty follows the slow zone. -/
def awningPulseLeaves (x0 x : Ctx) (u w : Units) : Prop :=
  let count := x.m.counterAw.count
  let overrun := x.m.counterAw.valid = true ∧ x.awningStroke + 50 < count
    ∧ x0.m.counterAw.count ≤ x.awningStroke + 50
  let ends := ∃ mo ∈ u.awning.motion, mo.step = .drive ∧ mo.dir = .outward ∧ mo.target.getD x.awningStroke ≤ count
  (overrun → x.awningPresent = true → codeStands (.group .awning) .stall w)
  ∧ (¬ overrun → ends → w = { u with image := { u.image with awningMotor := { dir := .none, duty := 0 } } })
  ∧ (¬ overrun → ¬ ends → w = { u with image := { u.image with
      awningMotor := reshaped x0.awningSlow x.awningSlow u.awning.ramp x.now u.image.awningMotor } })

/-- Each jack's valve as it was, but OFF for a jack at its limit: DOWN at the max stroke, UP at the made stowed switch
(R131, R132). -/
def valvesAtLimits (x : Ctx) (u v : Units) : Prop :=
  ∀ j : Fin 6, v.image.jackValve[j] = match u.image.jackValve[j] with
    | .off => .off
    | .down => if x.maxStroke ≤ (x.m.counterJ[j]).count then .off else .down
    | .up => if x.m.jackStowed[j] = true then .off else .up

/-- What an event leaves of a jog with record `mo` in its JOG step (R131): with every jack of the set at its limit for
the direction the operation ended and the set settled; otherwise the operation with the jacks at their limits closed. -/
def jogLeaves (x : Ctx) (mo : JackMotion) (u v : Units) : Prop :=
  let atLimit := fun j : Fin 6 => match mo.jogDir with
    | .down => x.maxStroke ≤ (x.m.counterJ[j]).count
    | .up => x.m.jackStowed[j] = true
  ((∀ j ∈ mo.jogSet, atLimit j) → v.jacks.motion = none ∧ v.jacks.state = x.jacksSettled ∧ outputsOff .jacks v
    ∧ drawsNothing .jacks u v)
  ∧ (¬ (∀ j ∈ mo.jogSet, atLimit j) → v.jacks.motion = some mo ∧ valvesAtLimits x u v)

/-- No group but g moves. -/
def onlyMoves (g : Group) (u : Units) : Prop := (∀ h, h ≠ g → motionRequester u h = none) ∧ u.awning.retract = none

/-- A notice offered in the event from `s` to `t` waits on link l, where the link is LINKED, its transmitter is busy and
its notice queue was not full (R190, R192). -/
def noticeWaits (s t : State) (l : Link) (b : NoticeBody) : Prop :=
  s.ctx.linked l = true → (inPort s l).sending.isSome = true → (outPort s l).notices.length < 16 →
    ∃ n ∈ (outPort t l).notices, n.stamp = s.m.now ∧ n.body = b

/-- The state of an idle present room once a switch of it has changed (R96). -/
def roomFollows (x : Ctx) (n : Fin 6) (st : RoomState) : RoomState :=
  match st with
  | .stowed | .partway | .unknown => x.roomSettled n
  | .out => if x.roomSettled n = .partway then .out else x.roomSettled n
  | _ => st

/-- The state of an idle jack set once a stowed switch or a contact flag of it has changed (R120). -/
def jacksFollow (x : Ctx) (st : JackSetState) : JackSetState :=
  match st with
  | .stowed | .grounded | .partway | .unknown => x.jacksSettled
  | .levelled => if x.allContact = true then .levelled else x.jacksSettled
  | _ => st

/-- The state of an idle awning once its stowed switch has changed with no shadowed room active (R142). -/
def awningFollows (x : Ctx) (st : AwningState) : AwningState :=
  match st with
  | .stowed | .out | .unknown => x.awningSettled
  | _ => st

/-- What an event leaves of a SEEK or RESEEK step with record `mo` (R124, R127, R130). While a present jack is not in
CONTACT the step goes on in set state `st`, the valves of the present jacks not in CONTACT DOWN and the others OFF. With
all of them in CONTACT it is over: the operation ended with the result of `res`, the set GROUNDED and MOTION_DONE
offered, or, where `res` names none, in the SETTLE step with 1000 ms to run. -/
def seekLeaves (x : Ctx) (mo : JackMotion) (st : JackSetState) (res : Option MotionResult) (s t : State) : Prop :=
  (x.allContact = false → t.u.jacks.motion = some mo ∧ t.u.jacks.state = st
    ∧ ∀ j : Fin 6, t.u.image.jackValve[j] = if x.jackPresent j = true ∧ x.contact j = false then .down else .off)
  ∧ (x.allContact = true → outputsOff .jacks t.u ∧ match res with
    | some r => t.u.jacks.motion = none ∧ t.u.jacks.state = .grounded ∧ drawsNothing .jacks s.u t.u
        ∧ ∀ l, addressed x mo.requester mo.route l → noticeWaits s t l (.motionDone .jacks r (x.position .jacks))
    | none => t.u.jacks.state = .levelling ∧ t.u.jacks.motion = some { mo with
        step := .settle, deadline := some (s.m.now + 1000#32), resume := none
        liftAxis := none, lifted := [], threshold := 0 })

/-- What the completed withdrawal of a room's pin leaves of an extend with record `mo` and no end at its end position,
from units `u` (R101, R102): the solenoid as it was, and the drive asked for. An ELECTRIC room drives both ends from a
fresh ramp where DRIVE n is admitted at once, and waits for it otherwise. A HYDRAULIC room that had no turn opens its
valve where the manifold was IDLE in its circuit and PUMP is admitted at once; otherwise it waits, with the turn or in
the manifold queue. -/
def withdrawalLeaves (x : Ctx) (n : Fin 6) (mo : RoomMotion) (u v : Units) : Prop :=
  let waits := v.rooms[n].state = .waiting
    ∧ v.rooms[n].motion = some { mo with step := .driveWait, pinDeadline := none }
  let runs := u.manifold.state = .idle ∧ u.image.diverter = .room ∧ (budgetAsk x .pump u).2 = true
  v.image.pin = u.image.pin
  ∧ (x.electric n = true →
    ((budgetAsk x (.drive n) u).2 = true → v.rooms[n].state = .extending
      ∧ v.rooms[n].motion = some { mo with step := .drive, pinDeadline := none, begun := true }
      ∧ (∃ a ∈ v.admissions, a.consumer = .drive n)
      ∧ ∀ e, imageMotor v.image n e = { dir := .outward, duty := 20 })
    ∧ ((budgetAsk x (.drive n) u).2 = false → waits ∧ ∃ b ∈ v.budgetQueue, b.consumer = .drive n))
  ∧ (x.electric n = false → u.manifold.user ≠ some (.room n) →
    (runs → v.rooms[n].state = .extending
      ∧ v.rooms[n].motion = some { mo with step := .drive, pinDeadline := none, begun := true, lostTurn := false }
      ∧ v.manifold.state = .running ∧ v.manifold.user = some (.room n)
      ∧ v.image.pump = true ∧ v.image.roomValve[n] = .extend)
    ∧ (¬ runs → waits
      ∧ (v.manifold.user = some (.room n) ∨ ∃ w ∈ v.manifold.queue, w.user = .room n)))

/-! ## Virtual lines written -/

/-- What writing a value to virtual line n by link l does (R158): a line that was INACTIVE and is written ACTIVE is
activated with the link as writer and a deadline one deadman window ahead; one that was ACTIVE is refreshed, or, written
INACTIVE, deactivated with no writer and no deadline; INACTIVE written INACTIVE is no change. -/
def lineWritten (m : Measured) (l : Link) (n : Fin 8) (v : Bool) (d : Desk) : Desk :=
  let write := fun (v : Bool) (k : Option Link) (t : Option CoachTime) =>
    { d with c := { d.c with virt := d.c.virt.set n { d.c.virt[n] with value := v, writer := k, deadline := t } } }
  let held := write true (some l) (some (m.now + BitVec.ofNat 32 (d.ctx m).deadman))
  if v then (if (d.c.virt[n]).value then held else activate m (.virtual n) held)
  else if (d.c.virt[n]).value then deactivate m (.virtual n) (write false none none) else d

/-! ## Stalls -/

/-- When an axis whose drive came on at `t0` stalls (R92): the stall window past the later of `t0` plus 300 ms and the
last pulse. -/
def stallMoment (s : State) (a : Axis) (t0 : CoachTime) : CoachTime :=
  let grace := t0 + 300#32
  let start := match (s.m.counter a).lastPulse with
    | some p => if reached grace p then p else grace
    | none => grace
  start + BitVec.ofNat 32 (match a with | .roomEnd n _ => s.ctx.roomField n 8 | .jack _ | .awning => 600)

/-! ## States in which nothing else happens -/

/-- With the setup part `c`, the units have nothing left to do: the settlement of an event that changes nothing more
leaves them as they are (log 30). -/
def unitsSettled (s : State) (c : Setup) : Prop := finish s.ctx s.u false { m := s.m, c := c } s.u = s.u

/-- The setup part once a request has joined its receive queue. -/
def afterReceipt (s : State) (l : Link) (q : QueuedRequest) : Setup :=
  (queueRequest l q { s.desk with c := hearLink s.m l s.c }).c

/-- A request on link l would be taken in the event of its receipt, with nothing else left to do: no request waits,
the ports have sent what they can, the link's response line is empty, and it has fewer than four held clears (R189). -/
def readyFor (s : State) (l : Link) (q : QueuedRequest) : Prop :=
  portsSettled s ∧ noRequestWaits s.c ∧ (outPort s l).line = []
    ∧ (s.u.heldClears.filter fun h => h.link == l).length < 4 ∧ unitsSettled s (afterReceipt s l q)

/-- The three transmitters asked in turn to start a frame (R190). -/
def sendAll (m : Measured) (d : Desk) : Desk := allLinks.foldl (fun d l => transmit m l d) d

/-- The desk at which a request received on link l is decided. -/
abbrev deskAt (s : State) (l : Link) : Desk := { c := hearLink s.m l s.c, u := s.u }

/-- The state after a request that a ready port decided, leaving desk `e` and the answer `a` (none while it is withheld,
R182): the answer joins the response line, the event is settled, and the transmitters start what is to be sent
(R189, R190; log 5). -/
def served (s : State) (l : Link) (tag : Byte) (q : Request) (e : Desk) (a : Option Reply) : State :=
  let u := match a with
    | some r => respond l (requestKind q) tag r.1 r.2 e.u
    | none => e.u
  let f := sendAll s.m { c := e.c, u := finish ((deskAt s l).ctx s.m) s.u false (e.ctx s.m) u }
  { s with c := f.c, u := f.u }

/-- One byte after another on a link, while each answers a next state. -/
def receiveBytes (l : Link) (bs : List Byte) (s : State) : Answer :=
  bs.foldl (fun o b => match o with | .next s => exec (.byteReceived l b) s | o => o) (.next s)

/-! ## Kinds of commands -/

/-- The commands that are one event each: all but the two resets and those that may carry a request. -/
def plainCommand (i : Instr) : Bool :=
  i.request?.isNone && match i with
    | .powerOnReset _ | .xrst _ | .validFrameReceipt _ _ _ _ | .byteReceived _ _ => false
    | _ => true

/-- The commands that only the measured part and the units answer: samples, chassis inputs, switches, pulses, the wind
monitor, the driver chain, and the timers of the sequencers, the manifold and the claims. -/
def unitsOnly : Instr → Bool
  | .preemptionTimeReached _ | .claimWaitDeadline _ | .vbatSample _ | .ibusSample _ | .pmanSample _ | .pjSample _ _
  | .tiltSample _ _ | .roadSpeedWindowEnd | .estopAsserted | .estopReleased | .spdPulse | .inSwitchChange _ _ _
  | .lockSwitchChange _ _ _ | .jackStowedSwitchChange _ _ | .awningStowedSwitchChange _ | .axisPulse _ | .stall _
  | .anemometerPulse | .windSecondBoundary | .periodicFrameStart | .echoReceived _ | .echoMissing | .pinTimeout _
  | .roomDwellEnd _ | .awningDwellEnd | .holdDeadlineExpiry _ | .seekTimeout | .settleEnd | .liftDeadline
  | .retractTimeout | .switchingEnd | .heatRise | .heatFall => true
  | _ => false

/-- The commands that write the measured part. -/
def measures : Instr → Bool
  | .powerOnReset _ | .xrst _ | .vbatSample _ | .ibusSample _ | .pmanSample _ | .pjSample _ _ | .tiltSample _ _
  | .roadSpeedWindowEnd | .estopAsserted | .estopReleased | .spdPulse | .inSwitchChange _ _ _
  | .lockSwitchChange _ _ _ | .jackStowedSwitchChange _ _ | .awningStowedSwitchChange _ | .axisPulse _
  | .anemometerPulse | .windSecondBoundary | .echoReceived _ | .echoMissing | .heatRise | .heatFall => true
  | _ => false

end Sys2Proof.Safety
end

