-- ==== Sys2Proof/Certificates/Slice0/Obligations.lean ====
section
/-! DEFINITION. The statements about the block, from the numbered rules of the spec. `t` is always the state a command
answers. -/
open Sys2Proof Sys2Proof.Machine Sys2Proof.Safety

/-! ## The machine as a whole -/

/-- A step takes the command at the front of the queue and is that command on the state with the queue's rest; with an
empty queue it is a millisecond of coach time and nothing else (the second clause is the model's choice, log 1). -/
def Obligations.StepRunsTheFrontCommand : Prop :=
  (∀ (i : Instr) (rest : List Instr) (s : State),
    step { s with pending := i :: rest } = exec i { s with pending := rest })
  ∧ ∀ s : State, step { s with pending := [] } = .next { s with pending := [], m := { s.m with now := s.m.now + 1 } }

/-- Every command answers a next state in every state, and leaves the queue alone: that the two resets among them do so
is the model's choice (log 36, with log 1). -/
def Obligations.EveryCommandAnswersANextState : Prop :=
  ∀ (i : Instr) (s : State), ∃ t, exec i s = .next t ∧ t.pending = s.pending

/-- Only the commands that measure write the measured part (coach time, inputs, counters, samples). A command that only
the measured part and the units answer leaves profile, line map, receivers and link states as they are: with no request
waiting, nothing of the setup part changes but the frames the transmitters take up. -/
def Obligations.CommandsWriteOnlyTheirPartOfTheState : Prop :=
  (∀ (i : Instr) (s t : State), measures i = false → exec i s = .next t → t.m = s.m)
  ∧ ∀ (i : Instr) (s t : State), unitsOnly i = true → noRequestWaits s.c → exec i s = .next t →
      onlyTransmitters s.c t.c

/-- A timer command taken before its moment, or with no timer running, changes nothing: every row that a timer of the
block sends (the model's reading, log 2). That PERIODIC_FRAME_START does nothing with a frame in flight, its 10 ms
passed or not, is the model's reading of R78 and R80 (log 29, DEDUCED). -/
def Obligations.EarlyTimersChangeNothing : Prop :=
  ∀ s : State,
    let not (d : CoachTime) := reached d s.m.now = false
    let short (d : CoachTime) (ms : Nat) := elapsed d s.m.now ms = false
    (∀ l, (∀ d ∈ (inPort s l).silence, not d) → exec (.silenceDeadline l) s = .next s)
    ∧ (∀ l, (∀ p ∈ (inPort s l).part, short p.last 5) → exec (.partialFrameTimeout l) s = .next s)
    ∧ (∀ v : Fin 8, s.c.virt[v].value = false ∨ (∀ d ∈ s.c.virt[v].deadline, not d) →
        exec (.virtualLineDeadline v) s = .next s)
    ∧ (∀ n : Fin 6, (∀ m ∈ s.u.rooms[n].motion, ∀ d ∈ m.pinDeadline, not d) → exec (.pinTimeout n) s = .next s)
    ∧ (∀ n : Fin 6, (∀ m ∈ s.u.rooms[n].motion, ∀ d ∈ m.dwellEnd, not d) → exec (.roomDwellEnd n) s = .next s)
    ∧ ((∀ d ∈ awningDwellEnd s.u, not d) → exec .awningDwellEnd s = .next s)
    ∧ (∀ g, (∀ d, groupHold s.u g = .deadline d → not d) → exec (.holdDeadlineExpiry g) s = .next s)
    ∧ ((∀ m ∈ s.u.jacks.motion, ∀ d ∈ m.deadline, not d) →
        exec .seekTimeout s = .next s ∧ exec .settleEnd s = .next s ∧ exec .liftDeadline s = .next s
          ∧ exec .retractTimeout s = .next s)
    ∧ (s.u.manifold.state ≠ .switching ∨ (∀ d ∈ s.u.manifold.switchingEnd, not d) → exec .switchingEnd s = .next s)
    ∧ (s.u.image.pump = false ∨ short s.u.manifold.heatStart 100 → exec .heatRise s = .next s)
    ∧ (s.u.image.pump = true ∨ short s.u.manifold.heatStart 300 → exec .heatFall s = .next s)
    ∧ (s.u.flight.isSome ∨ short s.u.frameStart 10 → exec .periodicFrameStart s = .next s)
    ∧ ((∀ f ∈ s.u.flight, short f.start 10) → exec .echoMissing s = .next s)
    ∧ (short s.m.windowStart 1000 → exec .roadSpeedWindowEnd s = .next s)
    ∧ (short s.m.wind.secondStart 1000 → exec .windSecondBoundary s = .next s)
    ∧ (∀ a, (∀ t0 ∈ s.u.driveOn[axisIdx a], not (stallMoment s a t0)) → exec (.stall a) s = .next s)
    ∧ (∀ i : Nat, (∀ e ∈ s.u.waitList[i]?, not e.deadline) → exec (.claimWaitDeadline i) s = .next s)
    ∧ (∀ i : Nat, (∀ e ∈ s.u.waitList[i]?, s.ctx.timing 3 = 0 ∨ e.tested = true
          ∨ not (e.arrival + BitVec.ofNat 32 (s.ctx.timing 3 * 1000))) →
        exec (.preemptionTimeReached i) s = .next s)

/-! ## Resets (R1, R2, R3, R15, R16, R22, R33, R44, R61, R76, R78, R83, R87, R171, R184, R188) -/

/-- POWER_ON_RESET leaves every register, switch, counter, queue and measurement at the value ResetValues lists, the
reset ending at coach time 0, with the heat count 0, the wind hold CLEAR, every sense channel in range and every fault
record EMPTY (R1, R2, R3, R15, R16, R22, R33, R44, R61, R76, R78, R83, R87, R92, R126, R137, R150, R156, R171, R188).
The queue of commands, the values of fields that exist only later, the free transmitter and the hunting receiver are the
model's choice (logs 36, 7, 71 and 72). -/
def Obligations.PowerOnResetLeavesResetValues : Prop :=
  ∀ (pins : ResetPins) (s : State), ∃ t, exec (.powerOnReset pins) s = .next t ∧ t.pending = s.pending
    ∧ ResetValues pins 0 t ∧ t.m.heat = 0 ∧ t.m.wind.hold = false ∧ t.m.wind.lastWindy = none
    ∧ t.m.vbatRange = .inRange ∧ t.m.ibusRange = .inRange ∧ t.m.pmanRange = .inRange
    ∧ (∀ j : Fin 6, t.m.pjRange[j] = .inRange) ∧ t.m.tiltXRange = .inRange ∧ t.m.tiltYRange = .inRange
    ∧ ∀ k, faultOf t.u k = { state := .empty, codes := [], firstStamp := none, lastStamp := none, count := 0
                             detail := .none, confirmed := true }

/-- XRST keeps coach time, the heat count, the wind hold with its last windy second, and every fault record field for
field but for its present marks and confirmation: the mark of a kept ESTOP is the level of the input, ROAD_MOTION is
gone, and the halt of a record kept ACTIVE is unconfirmed again. Everything else takes the value ResetValues lists, the
reset ending at that coach time (R1, R2, R3, R15, R16, R22, R33, R44, R61, R76, R78, R83, R87, R92, R126, R137, R149,
R150, R156, R184, R188). The queue of commands, the values of fields that exist only later, the range a channel has
until its first sample, and that a frame being sent and a partial frame are dropped are the model's choice (logs 36, 7,
16, 71 and 72). -/
def Obligations.XrstKeepsTimeHeatWindAndRecords : Prop :=
  ∀ (pins : ResetPins) (s : State), ∃ t, exec (.xrst pins) s = .next t ∧ t.pending = s.pending
    ∧ ResetValues pins s.m.now t ∧ t.m.heat = s.m.heat
    ∧ t.m.wind.hold = s.m.wind.hold ∧ t.m.wind.lastWindy = s.m.wind.lastWindy
    ∧ (∀ k : Subject,
        (faultOf t.u k).state = (faultOf s.u k).state
        ∧ (faultOf t.u k).codes.map Prod.fst = (faultOf s.u k).codes.map Prod.fst
        ∧ (faultOf t.u k).firstStamp = (faultOf s.u k).firstStamp
        ∧ (faultOf t.u k).lastStamp = (faultOf s.u k).lastStamp
        ∧ (faultOf t.u k).count = (faultOf s.u k).count ∧ (faultOf t.u k).detail = (faultOf s.u k).detail
        ∧ (faultOf t.u k).confirmed = ((faultOf s.u k).confirmed && (faultOf s.u k).state != .active)
        ∧ (marked (faultOf t.u k) .estop = true ↔ codeStands k .estop s.u ∧ pins.estop = true)
        ∧ marked (faultOf t.u k) .roadMotion = false
        ∧ ∀ code, code ≠ .estop → code ≠ .roadMotion → marked (faultOf t.u k) code = marked (faultOf s.u k) code)
    ∧ (let kept := fun c : Bool => if c then ChannelRange.undecided else .inRange
       let jack := fun (r : ChannelRange) (code : FaultCode) =>
         kept (r != .inRange && marked (faultOf s.u (.group .jacks)) code)
       let coach := kept (marked (faultOf s.u .coach) .senseRange)
       t.m.vbatRange = coach ∧ t.m.ibusRange = coach ∧ t.m.pmanRange = coach
       ∧ (∀ j : Fin 6, t.m.pjRange[j] = jack s.m.pjRange[j] .pjRange)
       ∧ t.m.tiltXRange = jack s.m.tiltXRange .tiltRange ∧ t.m.tiltYRange = jack s.m.tiltYRange .tiltRange)

/-! ## What every step keeps -/

/-- In every step the ports end settled: a transmitter is free only with nothing to send (R190). -/
def Obligations.EveryStepKeepsPortsSettled : Prop :=
  ∀ s t : State, portsSettled s → step s = .next t → portsSettled t

/-- In every step CHAIN_EN stays low while the COACH record is ACTIVE (R83, R175). -/
def Obligations.EveryStepKeepsChainLowWhileCoachActive : Prop :=
  ∀ s t : State, chainLowWhileActive s → step s = .next t → chainLowWhileActive t

/-- In every step a receive queue holds at most four requests and a notice queue at most sixteen notices (R188). -/
def Obligations.EveryStepKeepsQueueBounds : Prop :=
  ∀ s t : State, queuesBounded s → step s = .next t → queuesBounded t

/-- In every step the measured values stay within their bounds: counts -32768 to 32767 (R86), heat at most 1800 (R69),
the mismatch count at most 1 between events (R80), road speed at most 150 (R15), tilt rows at most eight samples (R126),
wind speeds at most 200 and a ring of at most thirty seconds (R148, R149). -/
def Obligations.EveryStepKeepsMeasurementsInBounds : Prop :=
  ∀ s t : State, measuredInBounds s.m → step s = .next t → measuredInBounds t.m

/-- The five invariants hold right after a power-on reset, whatever the pins read. -/
def Obligations.InvariantsHoldAfterPowerOn : Prop :=
  ∀ pins : ResetPins, portsSettled (State.powerOn pins) ∧ chainLowWhileActive (State.powerOn pins)
    ∧ queuesBounded (State.powerOn pins) ∧ measuredInBounds (State.powerOn pins).m
    ∧ budgetSettled (State.powerOn pins)

/-- CHAIN_EN rises in no event but the receipt of an echo that matches an all-off frame in flight, in RUN (R83). -/
def Obligations.ChainEnRisesOnlyAtAMatchingAllOffEcho : Prop :=
  ∀ (i : Instr) (s t : State), exec i s = .next t → s.u.chainEn = false → t.u.chainEn = true →
    ∃ (e : Echo) (f : Flight), i = .echoReceived e ∧ s.u.flight = some f ∧ s.c.phase = .run
      ∧ imageAllOff f.frame = true ∧ firstDifference f.frame e.latched = none

/-! ## Receivers (R186 to R189) -/

/-- A discarded frame raises its own tally by one, held at 65535, the receiver hunts again, and nothing else changes:
CRC_MISMATCH_DISCARD, LENGTH_DISCARD, FRAMING_ERROR, RECEIVER_OVERRUN in any state of the receiver;
PARTIAL_FRAME_TIMEOUT 5 ms after the last byte of a partial frame, LINE_BREAK in a partial frame, both with the
TRUNCATED tally. A break while hunting raises no tally and changes nothing (R186). -/
def Obligations.ReceiverErrorsRaiseTheirOwnTally : Prop :=
  ∀ (l : Link) (s : State),
    let p := inPort s l
    let truncated := withPort s l
      { p with tallies := { p.tallies with truncated := min 65535 (p.tallies.truncated + 1) }, part := none }
    exec (.crcMismatchDiscard l) s
      = .next (withPort s l { p with tallies := { p.tallies with crc := min 65535 (p.tallies.crc + 1) }, part := none })
    ∧ exec (.lengthDiscard l) s
      = .next (withPort s l
          { p with tallies := { p.tallies with length := min 65535 (p.tallies.length + 1) }, part := none })
    ∧ exec (.framingError l) s
      = .next (withPort s l
          { p with tallies := { p.tallies with framing := min 65535 (p.tallies.framing + 1) }, part := none })
    ∧ exec (.receiverOverrun l) s
      = .next (withPort s l
          { p with tallies := { p.tallies with overrun := min 65535 (p.tallies.overrun + 1) }, part := none })
    ∧ (∀ f, p.part = some f → elapsed f.last s.m.now 5 = true → exec (.partialFrameTimeout l) s = .next truncated)
    ∧ (p.part.isSome → exec (.lineBreak l) s = .next truncated)
    ∧ (p.part = none → exec (.lineBreak l) s = .next s)

/-- The receiver byte by byte: while hunting every byte but 0xC3 is discarded and 0xC3 starts a frame; a LEN outside 2
to 58 discards it with the LENGTH tally; other bytes are collected until LEN + 3 stand (LEN itself, LEN more, the CRC);
a complete frame whose CRC differs is discarded with the CRC tally: BYTE_RECEIVED (R186). -/
def Obligations.BytesAreHuntedCollectedAndChecked : Prop :=
  ∀ (l : Link) (b : Byte) (s : State),
    let p := inPort s l
    (p.part = none → b ≠ 0xC3#8 → exec (.byteReceived l b) s = .next s)
    ∧ (p.part = none → b = 0xC3#8 →
        exec (.byteReceived l b) s = .next (withPort s l { p with part := some { bytes := [], last := s.m.now } }))
    ∧ (∀ t0, p.part = some { bytes := [], last := t0 } → (b.toNat < 2 ∨ 58 < b.toNat) →
        exec (.byteReceived l b) s = .next (withPort s l
          { p with tallies := { p.tallies with length := min 65535 (p.tallies.length + 1) }, part := none }))
    ∧ (∀ t0, p.part = some { bytes := [], last := t0 } → 2 ≤ b.toNat → b.toNat ≤ 58 →
        exec (.byteReceived l b) s = .next (withPort s l { p with part := some { bytes := [b], last := s.m.now } }))
    ∧ (∀ len bytes t0, p.part = some { bytes := len :: bytes, last := t0 } → bytes.length + 2 < len.toNat + 3 →
        exec (.byteReceived l b) s
          = .next (withPort s l { p with part := some { bytes := len :: bytes ++ [b], last := s.m.now } }))
    ∧ (∀ len bytes t0, p.part = some { bytes := len :: bytes, last := t0 } → bytes.length + 2 = len.toNat + 3 →
        (∀ body : List Byte, len :: bytes ++ [b] ≠ body ++ crcBytes body) →
        exec (.byteReceived l b) s = .next (withPort s l
          { p with tallies := { p.tallies with crc := min 65535 (p.tallies.crc + 1) }, part := none }))

/-- A frame is the start byte, LEN, KIND, TAG, the payload and the CRC over LEN to the payload, high byte first, and its
bytes taken one by one by a hunting receiver are the receipt of that frame: the last one has the effect of
VALID_FRAME_RECEIPT on the state in which the bytes before it are collected (R186, R187). -/
def Obligations.FrameBytesAreReceivedAsTheFrame : Prop :=
  ∀ (l : Link) (kind tag : Byte) (payload : List Byte) (s : State),
    payload.length ≤ 56 → (inPort s l).part = none →
      let body := BitVec.ofNat 8 (payload.length + 2) :: kind :: tag :: payload
      frameBytes kind tag payload
        = 0xC3#8 :: body ++ [(crc16 body).extractLsb' 8 8, (crc16 body).extractLsb' 0 8]
      ∧ receiveBytes l (frameBytes kind tag payload) s
        = exec (.validFrameReceipt l kind tag payload) (withPort s l
            { inPort s l with part := some { bytes := (frameBytes kind tag payload).tail.dropLast, last := s.m.now } })

/-- A valid frame on a link makes it LINKED with the silence deadline set anew, from the limit of the profile or 3000 ms
before the commit, and ends the partial frame; the other links stay as they are (R188). -/
def Obligations.ReceiptLinksAndSetsTheSilenceDeadline : Prop :=
  ∀ (l : Link) (kind tag : Byte) (payload : List Byte) (s : State),
    ∃ t, exec (.validFrameReceipt l kind tag payload) s = .next t ∧ t.m = s.m
      ∧ (inPort t l).linked = true ∧ (inPort t l).part = none
      ∧ (inPort t l).silence = some (s.m.now + BitVec.ofNat 32 (s.ctx.timing 1))
      ∧ (s.c.profile = none → s.ctx.timing 1 = 3000)
      ∧ ∀ k, k ≠ l → (inPort t k).linked = (inPort s k).linked ∧ (inPort t k).silence = (inPort s k).silence
          ∧ (inPort t k).part = (inPort s k).part

/-- A request joins the tail of a receive queue of fewer than four; at a full queue it is answered QUEUE_FULL with no
data, unless four such answers wait already, in which case it is dropped and the OVERRUN tally rises (R189). -/
def Obligations.ReceiveQueueTakesFourRequests : Prop :=
  ∀ (l : Link) (q : QueuedRequest) (d : Desk),
    let p := d.c.ports[linkIdx l]
    let o := d.u.out[linkIdx l]
    let full := (o.line.filter fun r => r.status == .queueFull).length
    (p.rx.length < 4 → (queueRequest l q d).u = d.u
      ∧ (queueRequest l q d).c = withIn d.c l { p with rx := p.rx ++ [q] })
    ∧ (4 ≤ p.rx.length → full < 4 → (queueRequest l q d).c = d.c
        ∧ (queueRequest l q d).u = withOut d.u l { o with line := o.line ++
            [{ kind := requestKind q.req ||| 0x80#8, tag := q.tag, status := .queueFull, data := [], next := 0 }] })
    ∧ (4 ≤ p.rx.length → 4 ≤ full → (queueRequest l q d).u = d.u
        ∧ (queueRequest l q d).c = withIn d.c l
            { p with tallies := { p.tallies with overrun := min 65535 (p.tallies.overrun + 1) } })

/-- Each of the 26 request rows is the receipt of the frame that spells it: the KIND of its request and its parameters
written as R191 gives, decoded again to the same request (R187, R189, R191; log 4). -/
def Obligations.RequestRowsAreTheirFrames : Prop :=
  ∀ (i : Instr) (l : Link) (tag : Byte) (q : Request) (s : State),
    i.request? = some (l, tag, q) → i.wf = true →
      readRequest (requestKind q) (writeParameters q) = q ∧ (writeParameters q).length ≤ 56
      ∧ exec i s = exec (.validFrameReceipt l (requestKind q) tag (writeParameters q)) s

/-- Every request row, from PING to FAULT_CLEAR, received on a port that is ready for it is taken in the event of its
receipt, decided by the unit that owns it, settled, answered, and the transmitters start what is to be sent (R188, R189,
R190; log 5). -/
def Obligations.AReadyPortDecidesARequestAtItsReceipt : Prop :=
  ∀ (i : Instr) (l : Link) (tag : Byte) (q : Request) (s : State),
    i.request? = some (l, tag, q) → readyFor s l { tag := tag, req := q } →
      let r := decideRequest s.m l tag q (deskAt s l)
      exec i s = .next (served s l tag q r.1 r.2)

/-- Where each request that moves nothing is served, on a port that is ready for it: the effect and the answer of PING,
LINK_STATUS, PROFILE_GET, POSTURE_GET, MAP_READ, FAULT_GET and ATTENTION_SET in either phase; of PROFILE_STAGE,
PROFILE_ABANDON and PROFILE_COMMIT in CONFIG for the owner or with no owner; of CLAIM for unclaimed groups, RELEASE with
a held group, HOLD_REFRESH of a HOLD motion of the link, LINES_SET, MAP_WRITE and FAULT_CLEAR of a CLEARABLE record,
which is held unanswered. RELEASE leaves each named group of the link unclaimed, its motion of the link stopped with
result STOPPED, or, where a room finishes PIN_ENGAGE first, the claim marked and STOPPED pending; every other group
keeps claim and motion (R4 to R8, R14, R25, R30, R31, R105, R112, R133, R147, R158, R166 to R168, R180 to R182, R193,
R195, R196). The two bytes of each tally of LINK_STATUS, the discard byte of MAP_WRITE and the group-set byte of
RELEASE, 0 where it names no group, are the model's choice (log 8). -/
def Obligations.AcceptedRequestsHaveTheirEffectAndAnswer : Prop :=
  ∀ (l : Link) (tag : Byte) (s : State),
    let d := deskAt s l
    let x := d.ctx s.m
    let done := fun (i : Instr) (q : Request) (e : Desk) (a : Option Reply) =>
      readyFor s l { tag := tag, req := q } → exec i s = .next (served s l tag q e a)
    done (.ping l tag) .ping d (some (.ok, u32 s.m.now.toNat ++ [flagByte (d.c.phase == .config)]
      ++ u32 s.u.generation.toNat))
    ∧ done (.linkStatus l tag) .linkStatus { d with c := withIn d.c l { d.c.ports[linkIdx l] with tallies := {} } }
        (some (linkStatusReply d.c d.u l))
    ∧ (∀ sec, done (.profileGet l tag sec) (.profileGet sec) d
        (some (.ok, sectionBytes ((d.c.profile.getD d.c.staging).sectionSlots sec))))
    ∧ done (.postureGet l tag) .postureGet d (some (.ok, postureBytes x s.u))
    ∧ (∀ line, done (.mapRead l tag line) (.mapRead line) d (some (mapRead s.m d line)))
    ∧ (∀ k, done (.faultGet l tag k) (.faultGet k) d (some (faultGet s.u k)))
    ∧ (∀ v, v ≤ 15 → done (.attentionSet l tag v) (.attentionSet v)
        { d with c := withIn d.c l { d.c.ports[linkIdx l] with attention := true, level := v } } (some (.ok, [])))
    ∧ (∀ sec es, d.c.phase = .config → ¬ stagedByAnother d.c l → stageListOk sec es = true →
        done (.profileStage l tag sec es) (.profileStage sec es)
          { d with c := { d.c with staging := d.c.staging.stage s.m.straps sec es, owner := some l } } (some (.ok, [])))
    ∧ (d.c.phase = .config → d.c.owner = some l → done (.profileAbandon l tag) .profileAbandon
        { d with c := { d.c with owner := none, staging := initialSlots s.m.straps } } (some (.ok, [])))
    ∧ (d.c.phase = .config → ¬ stagedByAnother d.c l → firstOffence s.m.straps d.c.staging = none →
        done (.profileCommit l tag) .profileCommit (profileCommit s.m l d).1 (some (.ok, [])))
    ∧ (∀ gs wait gen, gs ≠ [] → gs.Nodup → (∀ g ∈ gs, x.present g = true ∧ claimOf s.u g = none) →
        permit x s.u = true → (∀ v, gen = some v → v = s.u.generation) →
        done (.claim l tag gs wait gen) (.claim gs wait gen)
          { d with u := (claimRequest x l tag gs wait gen s.u).1 } (some (.ok, stampBytes s.m.now)))
    ∧ (∀ gs, gs ≠ [] → gs.Nodup → (∀ g ∈ gs, x.present g = true) → (∃ g ∈ gs, holderOf s.u g = some (.link l)) →
        let held := allGroups.filter fun g => gs.contains g && holderOf s.u g == some (.link l)
        let v := releaseAll x l .stopped held s.u
        done (.release l tag gs) (.release gs) { d with u := v }
          (some (.ok, [groupSetByte (gs.filter fun g => holderOf s.u g != some (.link l))]))
        ∧ ∀ g, (g ∈ gs ∧ holderOf s.u g = some (.link l) → releaseLeaves x l g s.u v)
          ∧ (¬ (g ∈ gs ∧ holderOf s.u g = some (.link l)) →
            claimOf v g = claimOf s.u g ∧ motionRequester v g = motionRequester s.u g))
    ∧ (∀ g, x.present g = true → motionOwner s.u g = some (.link l, .hold) →
        let t := s.m.now + BitVec.ofNat 32 x.deadman
        done (.holdRefresh l tag g) (.holdRefresh g) { d with u := setHold g (.deadline t) s.u }
          (some (.ok, stampBytes t)))
    ∧ (∀ sel, d.c.phase = .run → sel ≠ [] → (sel.map Prod.fst).Nodup → (∀ n b, (Line.wired n, b) ∉ sel) →
        done (.linesSet l tag sel) (.linesSet sel) (linesSet s.m l sel d).1 (some (.ok, [])))
    ∧ (∀ line fs, checkMapWrite s.m line fs d = none →
        done (.mapWrite l tag line fs) (.mapWrite line fs) (mapWrite s.m line fs d).1
          (some (.ok, [if s.u.pendingMarks[lineIdx line] && fs.any (fun f => fieldIndex f != 3) then 1 else 0])))
    ∧ ∀ k, d.c.phase = .run → (faultOf s.u k).state = .clearable →
        (∀ g c, k = .group g → x.present g = true → claimOf s.u g = some c → c.holder = .link l) →
        done (.faultClear l tag k) (.faultClear k)
          { d with u := { s.u with heldClears := s.u.heldClears ++ [{ link := l, tag := tag, subject := k }] } } none

/-- Where each motion request moves a group and each stop request stops one, on a port that is ready for it. With the
checks of R17 and the interlocks passed: with no motion, ROOM_MOVE, JACK_AUTO, JACK_SEEK, JACK_JOG, JACK_RETRACT and
AWNING_MOVE make the claim of R28, create the record and begin the sequence, answered ACCEPTED, or are answered OK where
the group stands there already; a running motion is updated, answered OK, its record taking mode, target and hold source
and its claim losing its mark; a room or the awning asked for the other direction reverses, answered ACCEPTED: the
running motion ends SUPERSEDED and the new record takes its place with the claim kept, by the step it finds. ROOM_STOP,
JACK_STOP and AWNING_STOP run the stop procedure with result STOPPED, and STOP_ALL runs it for every moving group,
answered OK. The procedure with any result leaves the outputs off, the consumers given up, the turn ended or the queue
entry gone, no motion record, the state after a stop, MOTION_DONE with the result offered to the requester, and a
TRANSIENT or marked claim gone; a room that must engage its pin is left in PIN_ENGAGE with the result pending, and a
room in PIN_ENGAGE as it is; the other groups keep claim and motion (R17, R28, R29, R32, R97, R98, R100, R105, R107,
R108, R112, R113, R120 to R123, R133, R142 to R147). The model's own, and no rule's words: a reversal in DRIVE clears
the sync hold (log 42, DEDUCED); one to IN in DRIVE_WAIT of a room without a lock at its in-switch asks for its drive
(log 43, DEDUCED); ROOM_MOVE IN of a room left PARTIAL at its in-switch begins as log 70 says (DESIGN CHOICE); a stop
leaves the awning motor's direction NONE (log 65, DESIGN CHOICE); STOP_ALL ends the motions in the order of log 35
(DEDUCED); a room that a reversal takes to PINNING gives up a PUMP that waits for its turn with its own consumers (log
76, DEDUCED); and the marks of a room's record beside the fields of R97 (logs 24 and 39, DEDUCED). -/
def Obligations.MotionsAreStartedAndStoppedByTheirRequests : Prop :=
  (∀ (l : Link) (tag : Byte) (s : State),
    let d := deskAt s l
    let x := d.ctx s.m
    let done := fun (i : Instr) (q : Request) (u : Units) (a : Reply) =>
      readyFor s l { tag := tag, req := q } → exec i s = .next (served s l tag q { d with u := u } (some a))
    let hold := fun mode : Mode =>
      if mode = .hold then HoldSource.deadline (s.m.now + BitVec.ofNat 32 x.deadman) else .none
    let nowhere : Route := .links false false false
    let claimed := fun g : Group => claimForMotion x (.link l) g s.u
    let superseded := fun (g : Group) (q : Requester) (r : Route) =>
      unmarked g (offerMotion x q r (.motionDone g .superseded (x.position g)) s.u)
    let jacks := fun (k : JackAsk) (gen : Option Generation) (i : Instr) (q : Request) =>
      badJackAsk x k = false → checkMotion x s.u (.link l) .jacks gen = none → jackInterlock x s.u k = none →
      (s.u.jacks.motion = none → jackAlready x s.u k = true → done i q s.u (.ok, []))
      ∧ (s.u.jacks.motion = none → jackAlready x s.u k = false →
        done i q (askTurn x .jacks { claimed .jacks with jacks := { (claimed .jacks).jacks with
          state := kindState k.kind
          motion := some { requester := .link l, kind := k.kind, mode := k.mode, jogSet := k.set, jogDir := k.dir
                           hold := hold k.mode, route := nowhere, step := .turnWait } } })
          (.accepted, []))
      ∧ ∀ mo, s.u.jacks.motion = some mo → done i q (jacksUpdated x k (hold k.mode) nowhere mo s.u) (.ok, [])
    (∀ n dir mode target gen, (target = none ∨ (dir = .outward ∧ mode = .full)) →
      checkMotion x s.u (.link l) (.room n) gen = none → roomInterlock x s.u n dir = none →
      (∀ p ∈ target, p ≤ x.roomStroke n ∧ x.roomPosition n < p) →
      let room := s.u.rooms[n]
      let does := done (.roomMove l tag (.room n) dir mode target gen) (.roomMove (.room n) dir mode target gen)
      let there := dir = .outward ∧ room.state = .out ∨ dir = .inward ∧ room.state = .stowed
      (room.motion = none → there → does s.u (.ok, []))
      ∧ (room.motion = none → ¬ there →
        let u := claimed (.room n)
        let mo : RoomMotion :=
          { requester := .link l, dir := dir, mode := mode, target := target, hold := hold mode, route := nowhere
            step := .driveWait }
        does (beginSequence x n dir { u with rooms := u.rooms.set n { u.rooms[n] with motion := some mo } })
          (.accepted, []))
      ∧ ∀ mo, room.motion = some mo →
        let asked := { mo with
          dir := dir, mode := mode, target := target, hold := hold mode, route := nowhere, pending := none }
        let same := if mo.step = .pinEngage then dir = .inward else dir = mo.dir
        (same → does
          { unmarked (.room n) s.u with rooms := s.u.rooms.set n { room with motion := some asked } } (.ok, []))
        ∧ (¬ same → ∃ v, does v (.accepted, []) ∧ roomReversed x n { asked with requester := .link l, begun := false }
            (superseded (.room n) mo.requester mo.route) v))
    ∧ (∀ mode gen, jacks { kind := .auto, mode := mode } gen (.jackAuto l tag mode gen) (.jackAuto mode gen))
    ∧ (∀ mode gen, jacks { kind := .seek, mode := mode } gen (.jackSeek l tag mode gen) (.jackSeek mode gen))
    ∧ (∀ js dir mode gen, jacks { kind := .jog, mode := mode, set := js, dir := dir } gen
        (.jackJog l tag js dir mode gen) (.jackJog js dir mode gen))
    ∧ (∀ mode gen, jacks { kind := .retract, mode := mode } gen (.jackRetract l tag mode gen) (.jackRetract mode gen))
    ∧ (∀ dir mode percent gen,
        (percent = none ∨ (dir = .outward ∧ mode = .full ∧ ∀ p ∈ percent, 1 ≤ p ∧ p ≤ 100)) →
        checkMotion x s.u (.link l) .awning gen = none → awningInterlock x s.u dir = none →
        awningOwnCheck x s.u dir percent = none →
        let does := done (.awningMove l tag dir mode percent gen) (.awningMove dir mode percent gen)
        let st : AwningState := if dir = .outward then .extending else .retracting
        let there := dir = .outward ∧ s.u.awning.state = .out ∧ x.awningStroke ≤ s.m.counterAw.count
          ∨ dir = .inward ∧ s.u.awning.state = .stowed
        (s.u.awning.motion = none → there → does s.u (.ok, []))
        ∧ (s.u.awning.motion = none → ¬ there →
          let u : Units := { claimed .awning with awning := { (claimed .awning).awning with
            state := st
            motion := some { requester := .link l, dir := dir, mode := mode, target := percent.map (percentCount x)
                             hold := hold mode, route := nowhere, step := .admitWait } } }
          let r := budgetAsk x .awning u
          does (if r.2 = true then startAwning x r.1 else r.1) (.accepted, []))
        ∧ ∀ mo, s.u.awning.motion = some mo →
          let asked : AwningMotion := { mo with
            requester := .link l, dir := dir, mode := mode, target := percent.map (percentCount x), hold := hold mode
            route := nowhere }
          let w := superseded .awning mo.requester mo.route
          (dir = mo.dir →
            does { unmarked .awning s.u with awning := { s.u.awning with motion := some asked } } (.ok, []))
          ∧ (dir ≠ mo.dir → mo.step ≠ .drive →
            does { w with awning := { s.u.awning with state := st, motion := some asked } } (.accepted, []))
          ∧ (dir ≠ mo.dir → mo.step = .drive →
            does { w with
              awning := { s.u.awning with
                state := st, motion := some { asked with step := .dwell, dwellEnd := some (s.m.now + 500#32) } }
              image := { s.u.image with awningMotor := { s.u.image.awningMotor with duty := 0 } } } (.accepted, [])))
    ∧ (∀ n, x.roomPresent n = true → s.u.rooms[n].motion.isSome →
        done (.roomStop l tag (.room n)) (.roomStop (.room n)) (stopMotion x (.room n) .stopped s.u) (.ok, []))
    ∧ (d.c.phase = .run → s.u.jacks.motion.isSome →
        done (.jackStop l tag) .jackStop (stopMotion x .jacks .stopped s.u) (.ok, []))
    ∧ (x.awningPresent = true → s.u.awning.retract = none → s.u.awning.motion.isSome →
        done (.awningStop l tag) .awningStop (stopMotion x .awning .stopped s.u) (.ok, []))
    ∧ (d.c.phase = .run → done (.stopAll l tag) .stopAll
        (endAll x (movingGroups s.u) (fun u g => stopMotion x g .stopped u) s.u) (.ok, [])))
  ∧ ∀ (x : Ctx) (u : Units),
    (∀ g res,
      let v := stopMotion x g res u
      stopLeaves x g res u v ∧ claimFollowsMotion g u v
      ∧ (engaging u g ∨ motionRequester u g = none → v = u)
      ∧ ∀ h, h ≠ g → claimOf v h = claimOf u h ∧ motionRequester v h = motionRequester u h)
    ∧ (let v := endAll x (movingGroups u) (fun u g => stopMotion x g .stopped u) u
      ∀ g, stopLeaves x g .stopped u v ∧ claimFollowsMotion g u v
        ∧ (∀ n, g = .room n → engaging u g → v.rooms[n] = u.rooms[n])
        ∧ (motionRequester u g = none → motionRequester v g = none))
    ∧ (∀ n, x.roomStopped n = if x.roomIn n = true then .stowed
      else if ∀ e ∈ x.ends n, (x.m.counter (.roomEnd n e)).valid = true ∧ x.roomStroke n ≤ x.endCount n e then .out
      else if ∀ e ∈ x.ends n, (x.m.counter (.roomEnd n e)).valid = true then .partway else .unknown)
    ∧ (x.jacksSettled = if ∀ j ∈ x.presentJacks, x.m.jackStowed[j] = true then .stowed
      else if ∃ j ∈ x.presentJacks, (x.m.counterJ[j]).valid = false then .unknown
      else if ∀ j ∈ x.presentJacks, x.contact j = true then .grounded else .partway)
    ∧ x.awningSettled = if x.m.awningStowed = true then .stowed
      else if x.m.counterAw.valid = true then .out else .unknown

/-- A request that is refused with any status changes nothing: every request but PROFILE_COMMIT, whose failure ends the
staging ownership (R5, R17). -/
def Obligations.RefusedRequestsChangeNothing : Prop :=
  ∀ (m : Measured) (l : Link) (tag : Byte) (q : Request) (d : Desk) (st : Status) (data : List Byte),
    q ≠ .profileCommit → (decideRequest m l tag q d).2 = some (st, data) → st ≠ .ok → st ≠ .accepted →
      (decideRequest m l tag q d).1 = d

/-- Each of these is answered OK in either phase. PING gives coach time, phase and generation; PROFILE_GET the section,
POSTURE_GET the posture record; MAP_READ the entry with its marks: polarity, debounce, level and activity of a wired
line, value, writer and remaining time of a virtual one; they change nothing. LINK_STATUS gives the port's part of the
record and returns its five tallies to 0. ATTENTION_SET enables attention with a level of 0 to 15, replacing any earlier
one; any other value, and a line that does not exist, is BAD_REQUEST (R6, R14, R168, R193, R196). The byte values that
the spec leaves open are the model's choice (log 8). -/
def Obligations.ReadsAndAttentionAreServedInEitherPhase : Prop :=
  ∀ (m : Measured) (l : Link) (tag : Byte) (d : Desk),
    let p := d.c.ports[linkIdx l]
    let o := d.u.out[linkIdx l]
    let first := fun b : Bool => if b then (0 : Byte) else 1
    let common := fun (e : MapEntry) =>
      [byte e.trigger.ctorIdx, byte e.mask.ctorIdx] ++ actionBytes e.action ++ [routeByte e.route]
    decideRequest m l tag .ping d
      = (d, some (.ok, u32 m.now.toNat ++ [if d.c.phase = .config then 0 else 1] ++ u32 d.u.generation.toNat))
    ∧ decideRequest m l tag .linkStatus d
      = ({ d with c := withIn d.c l { p with tallies := {} } },
        some (.ok, [if p.linked then 0 else 1, if p.attention then 1 else 0, byte p.level]
          ++ u16 p.tallies.crc ++ u16 p.tallies.length ++ u16 p.tallies.framing ++ u16 p.tallies.overrun
          ++ u16 p.tallies.truncated
          ++ [byte p.rx.length, byte o.notices.length, if o.lostFlag then 0 else 1, byte o.lostCount]))
    ∧ (∀ sec, decideRequest m l tag (.profileGet sec) d
        = (d, some (.ok, sectionBytes ((d.c.profile.getD d.c.staging).sectionSlots sec))))
    ∧ decideRequest m l tag .postureGet d = (d, some (.ok, postureBytes (d.ctx m) d.u))
    ∧ (∀ n : Fin 16,
        let w := d.c.wired[n]
        decideRequest m l tag (.mapRead (.wired n)) d = (d, some (.ok,
          byte w.polarity.ctorIdx :: u16 w.debounce ++ common w.map
            ++ [byte w.level.ctorIdx, if (w.polarity = .activeHigh ↔ w.level = .high) then 0 else 1]
            ++ [first d.u.pendingMarks[lineIdx (.wired n)], first w.map.inService])))
    ∧ (∀ n : Fin 8,
        let v := d.c.virt[n]
        let left := match v.deadline with
          | some t => if reached t m.now = true then 0 else (t - m.now).toNat
          | none => 0
        decideRequest m l tag (.mapRead (.virtual n)) d = (d, some (.ok,
          common v.map ++ [first v.value, match v.writer with | some k => byte (linkIdx k).val | none => 255]
            ++ u16 left ++ [first d.u.pendingMarks[lineIdx (.virtual n)], first v.map.inService])))
    ∧ (∀ b : Byte, 24 ≤ b.toNat → readRequest 24#8 [b] = .malformed 24#8)
    ∧ decideRequest m l tag (.malformed 24#8) d = (d, some (.badRequest, []))
    ∧ ∀ v : Nat,
      (v ≤ 15 → decideRequest m l tag (.attentionSet v) d
        = ({ d with c := withIn d.c l { d.c.ports[linkIdx l] with attention := true, level := v } }, some (.ok, [])))
      ∧ (15 < v → decideRequest m l tag (.attentionSet v) d = (d, some (.badRequest, [])))

/-! ## Transmitters, notices, links (R188 to R193, R196) -/

/-- A free transmitter starts the next segment of the oldest response, which leaves the line with its last segment, or
else the oldest notice, which leaves its queue; a busy one does nothing. A segment carries the status, its index, the
segment count and up to 53 bytes of the data (R190). -/
def Obligations.TransmitterSendsResponsesBeforeNotices : Prop :=
  (∀ (m : Measured) (l : Link) (d : Desk),
    let p := d.c.ports[linkIdx l]
    let o := d.u.out[linkIdx l]
    (p.sending.isSome → transmit m l d = d)
    ∧ (p.sending = none → ∀ r rest, o.line = r :: rest →
        (transmit m l d).c = withIn d.c l { p with sending := some (segmentFrame r) }
        ∧ (transmit m l d).u = withOut d.u l { o with line :=
            (if r.next + 1 < segmentCount r then { r with next := r.next + 1 } :: rest else rest) })
    ∧ (p.sending = none → o.line = [] → ∀ n rest, o.notices = n :: rest → o.lostFlag = false →
        (transmit m l d).c = withIn d.c l { p with sending := some (noticeFrame m.now d.u.generation n) }
        ∧ (transmit m l d).u = withOut d.u l { o with notices := rest })
    ∧ (p.sending = none → o.line = [] → o.notices = [] → transmit m l d = d))
  ∧ ∀ r : Response,
    segmentFrame r = frameBytes r.kind r.tag
      ([byte r.status.ctorIdx, byte r.next, byte (segmentCount r)] ++ (r.data.drop (53 * r.next)).take 53)
    ∧ segmentCount r = max 1 ((r.data.length + 52) / 53)

/-- The end of a frame frees the transmitter, which starts the next thing to be sent in the same event; at a free
transmitter the command changes nothing. Where a request waits for the response line to empty, and the transmitter now
takes up the line's last segment, the request is taken in that event: decided, settled and answered, and the
transmitters start what is to be sent: TRANSMIT_FRAME_END (R189, R190). -/
def Obligations.FrameEndStartsTheNextFrame : Prop :=
  ∀ (l : Link) (s : State),
    let freed := (withPort s l { inPort s l with sending := none }).c
    ((inPort s l).sending = none → exec (.transmitFrameEnd l) s = .next s)
    ∧ ((inPort s l).sending.isSome → noRequestWaits s.c → unitsSettled s freed →
        exec (.transmitFrameEnd l) s
          = .next { s with
              c := (sendAll s.m { c := freed, u := s.u }).c, u := (sendAll s.m { c := freed, u := s.u }).u })
    ∧ ((inPort s l).sending.isSome → unitsSettled s freed →
        (∀ k, k ≠ l → (inPort s k).rx = []
          ∧ ((inPort s k).sending = none → (outPort s k).line = [] ∧ (outPort s k).notices = [])) →
        (s.u.heldClears.filter fun h => h.link == l).length < 4 →
        ∀ (q : QueuedRequest) (r : Response), (inPort s l).rx = [q] → (outPort s l).line = [r] →
          segmentCount r ≤ r.next + 1 →
          let d : Desk := { c := withIn s.c l { inPort s l with sending := some (segmentFrame r), rx := [] }
                            u := withOut s.u l { outPort s l with line := [] } }
          let a := decideRequest s.m l q.tag q.req d
          let u := match a.2 with
            | some b => respond l (requestKind q.req) q.tag b.1 b.2 a.1.u
            | none => a.1.u
          let e := sendAll s.m { c := a.1.c, u := finish (d.ctx s.m) d.u false (a.1.ctx s.m) u }
          exec (.transmitFrameEnd l) s = .next { s with c := e.c, u := e.u })

/-- When coach time reaches the silence deadline the link goes SILENT: its receive queue is emptied, attention disabled,
the deadline none and its staging ended; the tallies and the frame being sent are kept, and the other links stay as they
are. The event that is then settled has emptied the response line and the notice queue and cleared the lost flag and
count; the link's wait entries have left; of each group it held, the claim and the link's motion have ended, but for a
room in PIN_ENGAGE, which finishes its step with result ABORTED_LINK and its claim marked; each active virtual line it
wrote is inactive with no writer and no deadline, and the other lines stay as they are: SILENCE_DEADLINE (R5, R41, R105,
R159, R188; the order of these ends is the model's choice, log 57). -/
def Obligations.SilenceDeadlineSilencesTheLink : Prop :=
  ∀ (l : Link) (s : State), (∃ d ∈ (inPort s l).silence, reached d s.m.now = true) →
    (∃ e : Desk, exec (.silenceDeadline l) s = .next (settleEvent s s.m e false)
      ∧ e.u.out[linkIdx l] = { line := [], notices := [], lostFlag := false, lostCount := 0 }
      ∧ (∀ w ∈ e.u.waitList, w.link ≠ l)
      ∧ (∀ g, holderOf s.u g = some (.link l) →
          (claimOf e.u g = none ∧ motionRequester e.u g ≠ some (.link l))
          ∨ ∃ n mo c, g = .room n ∧ e.u.rooms[n].motion = some mo ∧ mo.step = .pinEngage
              ∧ mo.pending = some .abortedLink ∧ claimOf e.u g = some c ∧ c.mark = true)
      ∧ ∀ v : Fin 8,
          if (s.c.virt[v]).value = true ∧ (s.c.virt[v]).writer = some l then
            (e.c.virt[v]).value = false ∧ (e.c.virt[v]).writer = none ∧ (e.c.virt[v]).deadline = none
          else (e.c.virt[v]).value = (s.c.virt[v]).value ∧ (e.c.virt[v]).writer = (s.c.virt[v]).writer
            ∧ (e.c.virt[v]).deadline = (s.c.virt[v]).deadline)
    ∧ ((∀ k, k ≠ l → (inPort s k).rx = []) →
      ∃ t, exec (.silenceDeadline l) s = .next t ∧ t.m = s.m
        ∧ (inPort t l).linked = false ∧ (inPort t l).silence = none ∧ (inPort t l).rx = []
        ∧ (inPort t l).attention = false ∧ (inPort t l).tallies = (inPort s l).tallies
        ∧ (∀ f ∈ (inPort s l).sending, (inPort t l).sending = some f)
        ∧ (t.c.owner = if s.c.owner = some l then none else s.c.owner)
        ∧ (s.c.owner = some l → t.c.staging = initialSlots s.m.straps)
        ∧ ∀ k, k ≠ l → (inPort t k).linked = (inPort s k).linked ∧ (inPort t k).silence = (inPort s k).silence
            ∧ (inPort t k).attention = (inPort s k).attention)

/-- An offered notice is dropped at a SILENT link; a second waiting POSTURE_CHANGED is dropped; otherwise it joins a
queue of fewer than sixteen, or is lost with the lost flag set and the lost count raised, held at 255; and when a notice
leaves to be sent, NOTICES_LOST takes the freed place if the lost flag is set, and flag and count are cleared (R192). -/
def Obligations.NoticesAreOfferedAndCountedWhenLost : Prop :=
  ∀ (x : Ctx) (l : Link) (b : NoticeBody) (u : Units),
    let o := u.out[linkIdx l]
    let n : Notice := { stamp := x.now, body := b }
    (x.linked l = false → offerTo x l b u = u)
    ∧ (x.linked l = true → b = .postureChanged → (∃ k ∈ o.notices, k.body = .postureChanged) → offerTo x l b u = u)
    ∧ (x.linked l = true → (b ≠ .postureChanged ∨ ∀ k ∈ o.notices, k.body ≠ .postureChanged) →
        o.notices.length < 16 → offerTo x l b u = withOut u l { o with notices := o.notices ++ [n] })
    ∧ (x.linked l = true → (b ≠ .postureChanged ∨ ∀ k ∈ o.notices, k.body ≠ .postureChanged) →
        16 ≤ o.notices.length →
        offerTo x l b u = withOut u l { o with lostFlag := true, lostCount := min 255 (o.lostCount + 1) })
    ∧ (∀ (c : Setup) (k : Notice) (rest : List Notice), (c.ports[linkIdx l]).sending = none → o.line = [] →
        o.notices = k :: rest → o.lostFlag = true →
        (transmit x.m l { c := c, u := u }).u = withOut u l { o with
          notices := rest ++ [{ stamp := x.now, body := .noticesLost o.lostCount }]
          lostFlag := false, lostCount := 0 })

/-! ## Budget between events (Chapter 3) -/

/-- In every step the budget stays settled. In CONFIG nothing moves, waits or draws; in RUN the sum of all allocations
is within B_lim, the sum of the non-awning ones within B_lim less the reserve, no consumer stands twice in the admission
list and the wait queue together, and AWNING may draw no more than the reserve; the commit leads from the one to the
other (R2, R8, R12, R44, R49, R50). -/
def Obligations.EveryStepKeepsTheBudgetWithinTheLimit : Prop :=
  ∀ s t : State, budgetSettled s → step s = .next t → budgetSettled t

/-! ## Profile, posture, permits (Chapter 1) -/

/-- PROFILE_STAGE is BAD_REQUEST with no entry, refused LOCKED in RUN and to a link that is not the owner, BAD_REQUEST
for a bad list, and otherwise makes the link the owner: each listed slot takes its value, the present field of a ROOM n
or AWNING section that is not listed becomes yes, a present field listed as no returns its section to its initial
content, and every other slot stays. PROFILE_ABANDON is refused LOCKED alike, ends the ownership of the owner with the
staging area at its initial contents, and changes nothing with no owner (R4, R5, R191; the order of the two refusals is
the model's reading, log 31). -/
def Obligations.StagingFollowsItsOwner : Prop :=
  ∀ (m : Measured) (l : Link) (tag : Byte) (sec : Section) (es : List (Nat × Int)) (d : Desk),
    let r := decideRequest m l tag (.profileStage sec es) d
    let free := d.c.phase = .config ∧ ¬ stagedByAnother d.c l
    (es = [] → r = (d, some (.badRequest, [])))
    ∧ (d.c.phase = .run ∨ stagedByAnother d.c l →
      (es ≠ [] → r = (d, some (.locked, []))) ∧ decideRequest m l tag .profileAbandon d = (d, some (.locked, [])))
    ∧ (free → stageListOk sec es = false → r = (d, some (.badRequest, [])))
    ∧ (free → stageListOk sec es = true →
        r = ({ d with c := { d.c with staging := d.c.staging.stage m.straps sec es, owner := some l } }, some (.ok, [])))
    ∧ (stageListOk sec es = true → (d.c.staging.sectionSlots sec).length = fieldCount sec →
        let p := d.c.staging.stage m.straps sec es
        let hasPresent := (∃ n, sec = .room n) ∨ sec = .awning
        (∀ other, other ≠ sec → p.sectionSlots other = d.c.staging.sectionSlots other)
        ∧ (hasPresent → (0, 0) ∈ es → p.sectionSlots sec = initialSection m.straps sec)
        ∧ (¬ (hasPresent ∧ (0, 0) ∈ es) →
            (∀ e ∈ es, p.slot sec e.1 = some e.2)
            ∧ (hasPresent → 0 ∉ es.map Prod.fst → p.slot sec 0 = some 1)
            ∧ ∀ i, i ∉ es.map Prod.fst → ¬ (hasPresent ∧ i = 0) → p.slot sec i = d.c.staging.slot sec i))
    ∧ (d.c.phase = .config → d.c.owner = some l →
        decideRequest m l tag .profileAbandon d
          = ({ d with c := { d.c with owner := none, staging := initialSlots m.straps } }, some (.ok, [])))
    ∧ (d.c.phase = .config → d.c.owner = none →
        decideRequest m l tag .profileAbandon d = (d, some (.ok, [])))

/-- PROFILE_COMMIT is refused LOCKED in RUN and to a link that is not the owner; with an offending field it answers
BAD_PROFILE with section, index and reason and ends an ownership of the link, the staging area at its initial contents;
otherwise it answers OK, the staging area is the profile, the ownership ends and the phase is RUN. No field offends
exactly where every field lies in its range and its relation. The commit installs the PARK and IGN entries with PARK and
IGN from their activity, and gives each present group its settled state, or FAULT where its record was kept or the last
echo shows a trip on one of its channels, which raises TRIP; no group has a claim that had none. The group states are
stated with the units at rest, as every step keeps them in CONFIG (R5, R7 to R13, R15, R165, R178). -/
def Obligations.CommitChecksThenInstallsTheProfile : Prop :=
  ∀ (m : Measured) (l : Link) (tag : Byte) (d : Desk),
    let r := decideRequest m l tag .profileCommit d
    (d.c.phase = .run ∨ stagedByAnother d.c l → r = (d, some (.locked, [])))
    ∧ (d.c.phase = .config → ¬ stagedByAnother d.c l → ∀ sec i why,
        firstOffence m.straps d.c.staging = some (sec, i, why) →
        r.2 = some (.badProfile, [byte (sectionNumber sec), byte i, byte why.ctorIdx]) ∧ r.1.u = d.u
        ∧ r.1.c = if d.c.owner = some l then { d.c with owner := none, staging := initialSlots m.straps } else d.c)
    ∧ (firstOffence m.straps d.c.staging = none ↔ profileValid m.straps d.c.staging)
    ∧ (d.c.phase = .config → ¬ stagedByAnother d.c l → firstOffence m.straps d.c.staging = none →
        r.2 = some (.ok, []) ∧ r.1.c.phase = .run ∧ r.1.c.owner = none
        ∧ r.1.c.profile = some d.c.staging.committed ∧ r.1.c.ports = d.c.ports ∧ r.1.c.virt = d.c.virt
        ∧ (∀ (k : Fin 16) (i : ChassisInput) (at' : Nat),
            (i = .park ∧ at' = 0 ∨ i = .ign ∧ at' = 2) → d.c.staging.slot .lines at' = some (k.val : Int) →
            let w := d.c.wired[k]
            let polarity := if d.c.staging.slot .lines (at' + 1) = some 0 then Polarity.activeHigh else .activeLow
            r.1.c.wired[k] = { w with
              polarity := polarity, debounce := 30
              map := { w.map with trigger := .level, mask := .unmasked, action := .posture i } }
            ∧ (match i with | .park => r.1.c.parkSet | .ign => r.1.c.ignOn)
              = decide (polarity = .activeHigh ↔ w.level = .high))
        ∧ (∀ k : Fin 16, d.c.staging.slot .lines 0 ≠ some (k.val : Int) →
            d.c.staging.slot .lines 2 ≠ some (k.val : Int) → r.1.c.wired[k] = d.c.wired[k])
        ∧ (∀ g, claimOf d.u g = none → claimOf r.1.u g = none)
        ∧ (∀ g k e, (r.1.ctx m).present g = true → m.lastEcho = some e → k ∈ e.trips → channelOwner k = some g →
            codeStands (.group g) .trip r.1.u)
        ∧ (atRest d.u → let x := r.1.ctx m
          let faulted := fun g => (faultOf d.u (.group g)).state ≠ .empty
            ∨ ∃ e k, m.lastEcho = some e ∧ k ∈ e.trips ∧ channelOwner k = some g
          (∀ n, x.roomPresent n = true →
            (faulted (.room n) → r.1.u.rooms[n].state = .fault)
            ∧ (¬ faulted (.room n) → r.1.u.rooms[n].state = x.roomSettled n))
          ∧ (faulted .jacks → r.1.u.jacks.state = .fault) ∧ (¬ faulted .jacks → r.1.u.jacks.state = x.jacksSettled)
          ∧ (x.awningPresent = true →
            (faulted .awning → r.1.u.awning.state = .fault)
            ∧ (¬ faulted .awning → r.1.u.awning.state = x.awningSettled))))

/-- The motion permit holds exactly in RUN with PARK SET, road speed below 2, ESTOP RELEASED and the COACH record not
ACTIVE; the retract permit exactly in RUN with the COACH record not ACTIVE (R19). In an event, of a command that is no
request and no reset with no request waiting, or of a request on a ready port, the generation advances by one, modulo
2^32, if the posture record changed but for its live values, and stays as it is if not, the record at the event's two
ends compared (log 73, DESIGN CHOICE); the advance offers POSTURE_CHANGED to every LINKED link and writes nothing else
(R16, R18). In such an event of a command in which the permit falls, every motion of a requester has ended, the claim
wait list is empty and no activation waits (R20, R169). -/
def Obligations.PermitsAndGenerationFollowThePosture : Prop :=
  (∀ (x : Ctx) (u : Units),
    (permit x u = true ↔ x.c.phase = .run ∧ x.c.parkSet = true ∧ x.m.roadSpeed < 2 ∧ x.m.estop = false
      ∧ (faultOf u .coach).state ≠ .active)
    ∧ (retractPermit x u = true ↔ x.c.phase = .run ∧ (faultOf u .coach).state ≠ .active))
  ∧ (∀ (x0 x : Ctx) (u0 u : Units),
    (postureView x0 u0 = postureView x u → advance x0 u0 x u = u)
    ∧ (postureView x0 u0 ≠ postureView x u →
        advance x0 u0 x u = offerAll x .postureChanged { u with generation := u.generation + 1 }
        ∧ { advance x0 u0 x u with generation := u.generation, out := u.out } = u))
  ∧ ∀ (i : Instr) (s t : State), exec i s = .next t →
      ((plainCommand i = true ∧ noRequestWaits s.c)
        ∨ ∃ l tag q, i.request? = some (l, tag, q) ∧ readyFor s l { tag := tag, req := q }) →
      (t.u.generation = if postureView s.ctx s.u = postureView t.ctx t.u then s.u.generation else s.u.generation + 1)
      ∧ (plainCommand i = true → permit s.ctx s.u = true → permit t.ctx t.u = false →
          t.u.waitList = [] ∧ (∀ k, t.u.pendingMarks[lineIdx k] = false) ∧ ∀ g, motionRequester t.u g = none)

/-- The checks 2 to 7 of a motion request on one group, each deciding where the ones before it pass (R17). -/
def Obligations.MotionChecksDecideInOrder : Prop :=
  ∀ (x : Ctx) (u : Units) (q : Requester) (g : Group) (gen : Option Generation),
    (x.c.phase = .config → checkMotion x u q g gen = some (.notConfigured, []))
    ∧ (x.c.phase = .run → x.present g = false → checkMotion x u q g gen = some (.absent, [groupByte g]))
    ∧ (x.c.phase = .run → x.present g = true →
        (permit x u = false → checkMotion x u q g gen = some (.permit, []))
        ∧ (permit x u = true → (faultOf u .coach).state ≠ .empty →
            checkMotion x u q g gen = some (.faulted, [8#8]))
        ∧ (permit x u = true → (faultOf u .coach).state = .empty →
            ((faultOf u (.group g)).state ≠ .empty → checkMotion x u q g gen = some (.faulted, [groupByte g]))
            ∧ ((faultOf u (.group g)).state = .empty →
                (∀ c, claimOf u g = some c → c.holder ≠ q →
                  checkMotion x u q g gen = some (.heldBy, heldByBytes g c))
                ∧ ((∀ c, claimOf u g = some c → c.holder = q) →
                    (∀ v, gen = some v → v ≠ u.generation →
                      checkMotion x u q g gen = some (.stale, stampBytes u.generation))
                    ∧ ((∀ v, gen = some v → v = u.generation) → checkMotion x u q g gen = none)))))

/-! ## Claims (Chapter 2) -/

/-- A CLAIM is refused, with no change, in the order of its checks: BAD_REQUEST, NOT_CONFIGURED, ABSENT with the first
absent group, PERMIT, HELD_BY with the first group of another requester, its holder, kind and stamp, or WAIT_FULL, and
STALE. Otherwise the groups the link holds already leave the set, their claims EXPLICIT and unmarked; with no other
group the answer is OK with no data (log 21); unclaimed groups are granted EXPLICIT with the present stamp, which the
answer carries; and a set with a group of another requester waits, if asked to, as a new entry at the tail of the wait
list (R17, R25 to R27). -/
def Obligations.ClaimsAreRefusedGrantedOrWait : Prop :=
  ∀ (x : Ctx) (l : Link) (tag : Byte) (gs : List Group) (wait : Bool) (gen : Option Generation) (u : Units),
    let r := claimRequest x l tag gs wait gen u
    let held := (u.waitList.filter fun e => e.link == l).length
    let mine := fun g => holderOf u g = some (.link l)
    let other := fun g => ∃ c, claimOf u g = some c ∧ c.holder ≠ .link l
    let fresh := ∀ v, gen = some v → v = u.generation
    let kept := fun g : Group => (claimOf u g).map fun c =>
      { c with kind := .explicit, stamp := (if c.kind = .transient then x.now else c.stamp), mark := false }
    (gs = [] ∨ ¬ gs.Nodup → r = (u, .badRequest, []))
    ∧ (gs ≠ [] → gs.Nodup → x.c.phase = .config → r = (u, .notConfigured, []))
    ∧ (gs ≠ [] → gs.Nodup → x.c.phase = .run →
        (∀ g ∈ gs, x.present g = false → (∀ h ∈ gs, x.present h = false → groupIdx g ≤ groupIdx h) →
          r = (u, .absent, [groupByte g]))
        ∧ ((∀ g ∈ gs, x.present g = true) →
          (permit x u = false → r = (u, .permit, []))
          ∧ (permit x u = true →
            (wait = false → ∀ g ∈ gs, ∀ c, claimOf u g = some c → c.holder ≠ .link l →
                (∀ h ∈ gs, other h → groupIdx g ≤ groupIdx h) →
                r = (u, .heldBy, groupByte g :: requesterByte c.holder :: byte c.kind.ctorIdx :: stampBytes c.stamp))
            ∧ (wait = true → (∃ g ∈ gs, other g) →
                (2 ≤ held → r = (u, .waitFull, []))
                ∧ (held < 2 → ¬ fresh → r = (u, .stale, stampBytes u.generation))
                ∧ (held < 2 → fresh → r.2 = (.accepted, [])
                    ∧ (∀ g, claimOf r.1 g = if g ∈ gs ∧ mine g then kept g else claimOf u g)
                    ∧ ∃ rest, (∀ g, g ∈ rest ↔ g ∈ gs ∧ ¬ mine g) ∧ rest.Sublist allGroups
                      ∧ { r.1 with claims := u.claims } = { u with waitList := u.waitList ++
                        [{ link := l, tag := tag, missing := rest, asked := rest, arrival := x.now
                           deadline := x.now + BitVec.ofNat 32 (x.timing 2 * 1000), tested := false }] }))
            ∧ ((∀ g ∈ gs, ¬ other g) →
                (¬ fresh → r = (u, .stale, stampBytes u.generation))
                ∧ (fresh → r.2 = (.ok, if ∀ g ∈ gs, mine g then [] else stampBytes x.now)
                    ∧ ∀ g, claimOf r.1 g = if g ∈ gs then
                        (if mine g then kept g
                          else some { holder := .link l, kind := .explicit, stamp := x.now, mark := false })
                      else claimOf u g)))))

/-- At its deadline a wait entry leaves the list, its requester is offered CLAIM_REFUSED(TIMEOUT) with its tag and asked
set, and the event is settled from there, its grant walk leaving no entry it could grant: CLAIM_WAIT_DEADLINE (R34 to
R36). At its preemption time an entry is tested: it takes its missing groups if each is unclaimed, or held EXPLICIT,
unmarked and idle by a link ranked below, and no older entry names one; then each link that lost groups is offered one
CLAIM_LOST with the groups it lost and the entry's link, and no other link hears of it, the entry's link is offered
CLAIM_GRANTED with its tag and asked set, and the entry leaves the list, its groups leaving the missing sets of the
other entries of its link, which are gone where nothing is missing any more; otherwise it stays, tested:
PREEMPTION_TIME_REACHED (R33, R37, R38). The grant walk leaves every claim that stands; an entry whose missing groups
are all unclaimed and named by no older entry leaves the list, its groups EXPLICIT with the present stamp, CLAIM_GRANTED
with its tag and asked set offered to its link, and no entry of the link names one of them any more; afterwards each
entry left has a missing group that is claimed or that an older entry names; and with nothing to grant the walk changes
nothing (R33, R35). -/
def Obligations.WaitEntriesExpireOrPreempt : Prop :=
  (∀ (s : State) (i : Nat) (e : WaitEntry), s.u.waitList[i]? = some e →
    (reached e.deadline s.m.now = true →
      exec (.claimWaitDeadline i) s = .next (unitEvent s s.m fun x u =>
        offerTo x e.link (.claimRefused e.tag e.asked .timeout) { u with waitList := u.waitList.eraseIdx i })
      ∧ (noRequestWaits s.c → ∃ t, exec (.claimWaitDeadline i) s = .next t
        ∧ ∀ j w, t.u.waitList[j]? = some w → waitBlocked t.u j w))
    ∧ (s.ctx.timing 3 ≠ 0 → e.tested = false →
        reached (e.arrival + BitVec.ofNat 32 (s.ctx.timing 3 * 1000)) s.m.now = true →
        exec (.preemptionTimeReached i) s = .next (unitEvent s s.m (firstTest i e))
        ∧ ((∀ g ∈ e.missing, ∀ c, claimOf s.u g = some c → c.kind = .explicit ∧ c.mark = false ∧ idle s.u g = true
              ∧ ∃ k, c.holder = .link k ∧ s.ctx.rank e.link < s.ctx.rank k) →
            (∀ o ∈ s.u.waitList.take i, ∀ g ∈ o.missing, g ∉ e.missing) →
            let v := firstTest i e s.ctx s.u
            let lost := fun k : Link => e.missing.filter fun g => holderOf s.u g == some (.link k)
            (∀ g, claimOf v g = if g ∈ e.missing then
              some { holder := .link e.link, kind := .explicit, stamp := s.m.now, mark := false } else claimOf s.u g)
            ∧ (∀ k, lost k ≠ [] → offeredTo s.ctx k (.claimLost (lost k) (.link e.link)) v)
            ∧ ((∀ w ∈ s.u.waitList, w.missing ≠ []) → ∀ k, k ≠ e.link → lost k = [] → v.out[linkIdx k] = s.u.out[linkIdx k])
            ∧ offeredTo s.ctx e.link (.claimGranted e.tag e.asked s.m.now) v
            ∧ v.waitList = (((s.u.waitList.eraseIdx i).map fun w =>
                if w.link = e.link then { w with missing := w.missing.filter fun g => !e.missing.contains g } else w)
              |>.filter fun w => !w.missing.isEmpty))
        ∧ ((∃ g ∈ e.missing, (∃ o ∈ s.u.waitList.take i, g ∈ o.missing) ∨ ∃ c, claimOf s.u g = some c
              ∧ (c.holder = .wl ∨ idle s.u g = false ∨ c.mark = true ∨ c.kind = .transient
                ∨ ∃ k, c.holder = .link k ∧ s.ctx.rank k ≤ s.ctx.rank e.link)) →
            firstTest i e s.ctx s.u = { s.u with waitList := s.u.waitList.set i { e with tested := true } })))
  ∧ ∀ (x : Ctx) (u : Units),
    let v := grantWalk x u
    (∀ g c, claimOf u g = some c → claimOf v g = some c)
    ∧ (∀ j w, v.waitList[j]? = some w → waitBlocked v j w)
    ∧ ((∀ j w, u.waitList[j]? = some w → waitBlocked u j w) → v = u)
    ∧ ∀ i e, u.waitList[i]? = some e → ¬ waitBlocked u i e →
      (∀ g ∈ e.missing, claimOf v g
        = some { holder := .link e.link, kind := .explicit, stamp := x.now, mark := false })
      ∧ offeredTo x e.link (.claimGranted e.tag e.asked x.now) v
      ∧ ∀ w ∈ v.waitList, w.link = e.link → ∀ g ∈ e.missing, g ∉ w.missing

/-- HOLD_REFRESH passes checks 1 to 3; a HOLD motion of the refreshing link gets a deadline one deadman window ahead,
which the answer carries, and nothing else changes; every other case is refused NOT_MOVING (R195). -/
def Obligations.HoldRefreshMovesTheDeadline : Prop :=
  ∀ (m : Measured) (l : Link) (tag : Byte) (g : Group) (d : Desk),
    let x := d.ctx m
    let t := m.now + BitVec.ofNat 32 x.deadman
    let r := decideRequest m l tag (.holdRefresh g) d
    (∀ b : Byte, 8 ≤ b.toNat → readRequest 20#8 [b] = .malformed 20#8)
    ∧ decideRequest m l tag (.malformed 20#8) d = (d, some (.badRequest, []))
    ∧ (d.c.phase = .config → r = (d, some (.notConfigured, [])))
    ∧ (d.c.phase = .run → x.present g = false → r = (d, some (.absent, [groupByte g])))
    ∧ (d.c.phase = .run → x.present g = true → motionOwner d.u g ≠ some (.link l, .hold) →
        r = (d, some (.notMoving, [])))
    ∧ (d.c.phase = .run → x.present g = true → motionOwner d.u g = some (.link l, .hold) →
        r.2 = some (.ok, stampBytes t) ∧ r.1.c = d.c
        ∧ (∀ n mo, g = .room n → d.u.rooms[n].motion = some mo → r.1.u = { d.u with
            rooms := d.u.rooms.set n { d.u.rooms[n] with motion := some { mo with hold := .deadline t } } })
        ∧ (∀ mo, g = .jacks → d.u.jacks.motion = some mo →
            r.1.u = { d.u with jacks := { d.u.jacks with motion := some { mo with hold := .deadline t } } })
        ∧ (∀ mo, g = .awning → d.u.awning.motion = some mo →
            r.1.u = { d.u with awning := { d.u.awning with motion := some { mo with hold := .deadline t } } }))

/-- A stop request of a present group with no motion is answered NOT_MOVING and changes nothing, and AWNING_STOP during
an internal retract WIND_BUSY; STOP_ALL is answered OK in RUN; in CONFIG every stop is refused NOT_CONFIGURED:
ROOM_STOP, JACK_STOP, AWNING_STOP, STOP_ALL (R2, R32, R113, R133, R147). -/
def Obligations.StopsWithoutAMotionAnswerNotMoving : Prop :=
  ∀ (m : Measured) (l : Link) (tag : Byte) (d : Desk),
    let x := d.ctx m
    (d.c.phase = .config →
      (∀ n, decideRequest m l tag (.roomStop (.room n)) d = (d, some (.notConfigured, [])))
      ∧ decideRequest m l tag .jackStop d = (d, some (.notConfigured, []))
      ∧ decideRequest m l tag .awningStop d = (d, some (.notConfigured, []))
      ∧ decideRequest m l tag .stopAll d = (d, some (.notConfigured, [])))
    ∧ (d.c.phase = .run →
      (∀ n, x.roomPresent n = true → d.u.rooms[n].motion = none →
        decideRequest m l tag (.roomStop (.room n)) d = (d, some (.notMoving, [])))
      ∧ (d.u.jacks.motion = none → decideRequest m l tag .jackStop d = (d, some (.notMoving, [])))
      ∧ (x.awningPresent = true → d.u.awning.retract.isSome →
          decideRequest m l tag .awningStop d = (d, some (.windBusy, [])))
      ∧ (x.awningPresent = true → d.u.awning.retract = none → d.u.awning.motion = none →
          decideRequest m l tag .awningStop d = (d, some (.notMoving, [])))
      ∧ (decideRequest m l tag .stopAll d).2 = some (.ok, []) ∧ (decideRequest m l tag .stopAll d).1.c = d.c)

/-! ## Budget and samples (Chapters 3 and 4) -/

/-- A request for admission: an admitted consumer stays admitted and a queued one queued; AWNING is admitted if the sum
of all allocations stays within the limit, another consumer if the non-awning sum stays within the limit less the
reserve and no non-awning entry waits; otherwise it joins the tail of the queue with cause REQUEST (R49, R51). An
admission from the queue moves its entry to the tail of the admission list with a new stamp, and a shed consumer comes
back: PUMP on for the turn's user, a solenoid on with a fresh pin timeout, a room's or the awning's motor on in its
direction with a fresh soft start (R50, R53, R56). The admission pass, which runs in RUN alone, admits first AWNING,
then the heads, while they fit and their earliest time is reached, and leaves no head that does (R53). Consumers given
up leave both collections, and the pass runs where one of them was admitted or was the head of the queue (R52). -/
def Obligations.AdmissionIsAnsweredByFitAndQueue : Prop :=
  (∀ (x : Ctx) (k : Consumer) (u : Units),
    let a := allocation x k
    let admitted' : Units := { u with
      admissions := u.admissions ++ [{ consumer := k, allocation := a, stamp := x.now }] }
    let queued' : Units := { u with budgetQueue := u.budgetQueue ++
      [{ consumer := k, allocation := a, arrival := x.now, cause := .request, earliest := x.now }] }
    let everything := (u.admissions.map (·.allocation)).sum
    let others := ((u.admissions.filter fun e => e.consumer != .awning).map (·.allocation)).sum
    ((∃ e ∈ u.admissions, e.consumer = k) → budgetAsk x k u = (u, true))
    ∧ ((∀ e ∈ u.admissions, e.consumer ≠ k) → (∃ w ∈ u.budgetQueue, w.consumer = k) → budgetAsk x k u = (u, false))
    ∧ ((∀ e ∈ u.admissions, e.consumer ≠ k) → (∀ w ∈ u.budgetQueue, w.consumer ≠ k) →
        (k = .awning → everything + a ≤ x.m.bLim → budgetAsk x k u = (admitted', true))
        ∧ (k = .awning → x.m.bLim < everything + a → budgetAsk x k u = (queued', false))
        ∧ (k ≠ .awning → others + a ≤ x.m.bLim - reserve x → (∀ w ∈ u.budgetQueue, w.consumer = .awning) →
            budgetAsk x k u = (admitted', true))
        ∧ (k ≠ .awning → (x.m.bLim - reserve x < others + a ∨ ∃ w ∈ u.budgetQueue, w.consumer ≠ .awning) →
            budgetAsk x k u = (queued', false))))
  ∧ (∀ (x : Ctx) (w : BudgetWait) (u : Units),
    let v := admitQueued x w u
    let started := fun (d : MotorDir) (v : Motor) => v = { dir := d, duty := 20 }
    v.admissions = u.admissions ++ [{ consumer := w.consumer, allocation := w.allocation, stamp := x.now }]
    ∧ v.budgetQueue = u.budgetQueue.filter (fun e => e.consumer != w.consumer)
    ∧ (w.consumer = .pump → u.manifold.user.isSome → v.manifold.state = .running ∧ v.image.pump = true)
    ∧ (∀ n mo, w.consumer = .pin n → u.rooms[n].motion = some mo → v.image.pin[n] = true
        ∧ (mo.step = .unpin → v.rooms[n].motion = some { mo with
            lostPin := false, pinDeadline := some (x.now + BitVec.ofNat 32 (x.timing 4)) }))
    ∧ (∀ n mo, w.consumer = .drive n → x.electric n = true → u.rooms[n].motion = some mo → mo.step = .pause →
        mo.lostDrive = true → mo.lostPin = false → mo.lostTurn = false → mo.dwellEnd = none → mo.pinDeadline = none →
        v.rooms[n].state = drivingState mo.dir
        ∧ v.rooms[n].motion = some { mo with step := .drive, lostDrive := false, begun := true }
        ∧ ∀ e, u.rooms[n].syncHold = none → (imageMotor u.image n e).dir = motorDir mo.dir →
            endReached x n mo e = false → started (motorDir mo.dir) (imageMotor v.image n e))
    ∧ (w.consumer = .awning → w.cause ≠ .request → awningStep u = some .drive → awningAtEnd x u = false →
        started (motorDir (awningDir u)) v.image.awningMotor ∧ v.awning.ramp = x.now))
  ∧ (∀ (x : Ctx) (ks : List Consumer) (u : Units),
    let v := { u with
      admissions := u.admissions.filter (fun a => !ks.contains a.consumer)
      budgetQueue := u.budgetQueue.filter (fun w => !ks.contains w.consumer) }
    let due := ∃ k ∈ ks, (∃ a ∈ u.admissions, a.consumer = k)
      ∨ ∃ w, u.budgetQueue.find? (fun w => w.consumer != .awning) = some w ∧ w.consumer = k
    (due → giveUp x ks u = admissionPass x v) ∧ (¬ due → giveUp x ks u = v))
  ∧ ∀ (x : Ctx) (u : Units),
    let fitting := fun (v : Units) (w : BudgetWait) =>
      (if w.consumer = .awning then (v.admissions.map (·.allocation)).sum + w.allocation ≤ x.m.bLim
        else ((v.admissions.filter fun e => e.consumer != .awning).map (·.allocation)).sum + w.allocation
          ≤ x.m.bLim - reserve x)
      ∧ (w.cause = .shedOverload → reached w.earliest x.now = true)
    let head := fun v : Units => v.budgetQueue.find? fun w => w.consumer != .awning
    (x.c.phase = .config → admissionPass x u = u)
    ∧ (x.c.phase = .run → (u.budgetQueue.map (·.consumer)).Nodup →
        (∀ w ∈ u.budgetQueue, w.consumer = .awning → fitting u w →
          ∃ a ∈ (admissionPass x u).admissions, a.consumer = .awning)
        ∧ (∀ w, head (admissionPass x u) = some w → ¬ fitting (admissionPass x u) w)
        ∧ ((∀ w ∈ u.budgetQueue, w.consumer = .awning → ¬ fitting u w) →
          (∀ w, head u = some w → ¬ fitting u w) → admissionPass x u = u))

/-- A VBAT sample in range sets the limit by the derating line and runs the undervolt measurement, writing nothing else
of the measured part; UNDERVOLT stands on COACH and CHAIN_EN is low once the samples have been below the floor for 1000
ms; its present mark is cleared at a sample at or above the floor, as SENSE_RANGE's is with VBAT, IBUS and PMAN all in
range. In RUN, where the sample raises no UNDERVOLT, the admission pass runs if the admissions fit the new limit;
otherwise the newest non-awning admissions leave, one after another, until the sum of those that stay is within the
limit less the reserve, and AWNING if the total still exceeds the limit; each joins the tail of the queue with cause
SHED_LIMIT, and its outputs are off: the motors of a room at duty 0 and the room PAUSED (in PIN_WAIT and UNPIN too, log
74, DESIGN CHOICE), a solenoid off, the pump off with the turn kept, the awning motor at duty 0; no group is offered
more than one PAUSED(BUDGET) on a link: VBAT_SAMPLE (R45, R46, R47, R53 to R55, R83, R172, R175). -/
def Obligations.VbatSamplesSetTheLimit : Prop :=
  ∀ (v : Nat) (s : State), v ≤ 4000 →
    let rated := s.ctx.general 0
    let derate := s.ctx.general 1
    let floor := s.ctx.general 2
    let m : Measured := { s.m with
          bLim := (if derate ≤ v then rated else if v ≤ floor then 0 else rated * (v - floor) / (derate - floor))
          undervolt := (if v < floor then some (s.m.undervolt.getD s.m.now) else none)
          vbatRange := .inRange }
    let x : Ctx := { m := m, c := s.c }
    let sum := fun l : List Admission => (l.map (·.allocation)).sum
    let others := s.u.admissions.filter fun a => a.consumer != .awning
    let awning := s.u.admissions.filter fun a => a.consumer == .awning
    let fit := sum others ≤ m.bLim - reserve x ∧ sum s.u.admissions ≤ m.bLim
    let present := marked (faultOf s.u .coach) .undervolt
    let u1 := if s.m.ibusRange = .inRange ∧ s.m.pmanRange = .inRange ∧ marked (faultOf s.u .coach) .senseRange = true
      then clearPresent .coach .senseRange s.u else s.u
    let u2 := if floor ≤ v ∧ present = true then clearPresent .coach .undervolt u1 else u1
    let lasts := elapsed (s.m.undervolt.getD s.m.now) s.m.now 1000
    let told := fun (l : Link) (g : Group) (u : Units) =>
      ((u.out[linkIdx l]).notices.filter fun n => n.body == .paused g .budget).length
    (∃ t, exec (.vbatSample v) s = .next t ∧ t.m = m
      ∧ (v < floor → lasts = true → present = false → codeStands .coach .undervolt t.u ∧ t.u.chainEn = false))
    ∧ (s.c.phase = .run → (v < floor → lasts = true → present = true) →
        (fit → exec (.vbatSample v) s = .next (unitEvent s m fun x _ => admissionPass x u2))
        ∧ (¬ fit → (s.u.admissions.map (·.consumer)).Nodup →
          ∃ w : Units, exec (.vbatSample v) s = .next (unitEvent s m fun _ _ => w)
            ∧ (∀ l g, told l g w ≤ told l g s.u + 1)
            ∧ ∃ stay gone, others = stay ++ gone ∧ sum stay ≤ m.bLim - reserve x
              ∧ (∀ p, p <+: others → sum p ≤ m.bLim - reserve x → p <+: stay)
              ∧ (let shed := gone.reverse ++ if sum stay + sum awning ≤ m.bLim then [] else awning
                w.admissions = s.u.admissions.filter (fun a => shed.all fun b => b.consumer != a.consumer)
                ∧ w.budgetQueue = s.u.budgetQueue ++ shed.map (fun a =>
                    { consumer := a.consumer, allocation := a.allocation, arrival := s.m.now, cause := .shedLimit
                      earliest := s.m.now })
                ∧ ∀ a ∈ shed, match a.consumer with
                  | .drive n => (w.image.motorA[n]).duty = 0 ∧ (w.image.motorB[n]).duty = 0 ∧ w.rooms[n].state = .paused
                  | .pin n => w.image.pin[n] = false
                  | .pump => w.image.pump = false ∧ w.manifold.state = .awaitBudget
                      ∧ w.manifold.user = s.u.manifold.user
                  | .awning => w.image.awningMotor.duty = 0)))

/-- The first sample of VBAT, IBUS or PMAN out of its range puts SENSE_RANGE on COACH with CHAIN_EN low; a VBAT sample
out of range sets the limit to 0 and ends the undervolt measurement, a PMAN sample ends the overpressure measurement:
VBAT_SAMPLE, IBUS_SAMPLE, PMAN_SAMPLE (R47, R74). -/
def Obligations.SamplesOutOfRangeHaltTheCoach : Prop :=
  ∀ (v : Int) (s : State),
    (v < 0 ∨ 4000 < v →
      ∃ t, exec (.vbatSample v) s = .next t
        ∧ t.m = { s.m with bLim := 0, undervolt := none, vbatRange := .outOfRange }
        ∧ (s.m.vbatRange = .inRange → codeStands .coach .senseRange t.u ∧ t.u.chainEn = false))
    ∧ (v < 0 ∨ 4000 < v →
      ∃ t, exec (.ibusSample v) s = .next t ∧ t.m = { s.m with ibusRange := .outOfRange }
        ∧ (s.m.ibusRange = .inRange → codeStands .coach .senseRange t.u ∧ t.u.chainEn = false))
    ∧ (v < 0 ∨ 3000 < v →
      ∃ t, exec (.pmanSample v) s = .next t ∧ t.m = { s.m with pmanRange := .outOfRange, overpressure := none }
        ∧ (s.m.pmanRange = .inRange → codeStands .coach .senseRange t.u ∧ t.u.chainEn = false))

/-- An IBUS sample in range writes nothing else of the measured part, and, once VBAT, IBUS and PMAN are all in range,
the present mark of SENSE_RANGE is cleared; in RUN the overload measurement starts above 1.10 x B_lim and ends at or
below it; after 500 ms above it the overload is confirmed: the newest non-awning consumer is shed with cause
SHED_OVERLOAD, ADVISORY(BUS_OVERLOAD) goes to every LINKED link with the sample, B_lim and the consumer or none, and the
measurement is none; in CONFIG none of this runs. A PMAN sample in range runs the overpressure measurement above the
threshold, and after 200 ms puts OVERPRESSURE on COACH with CHAIN_EN low: IBUS_SAMPLE, PMAN_SAMPLE (R47, R57, R73,
R172). -/
def Obligations.OverloadAndOverpressureAreMeasured : Prop :=
  (∀ (v : Nat) (s : State), v ≤ 4000 →
    let m : Measured := { s.m with ibusRange := .inRange }
    let x : Ctx := { m := m, c := s.c }
    let u := if s.m.vbatRange = .inRange ∧ s.m.pmanRange = .inRange ∧ marked (faultOf s.u .coach) .senseRange = true then
        clearPresent .coach .senseRange s.u else s.u
    let above := 11 * s.m.bLim < 10 * v
    let start := s.u.overload.getD s.m.now
    let answers := fun w : Units => exec (.ibusSample v) s = .next (unitEvent s m fun _ _ => w)
    let told := fun (k : Option Consumer) (w : Units) =>
      offerAll x (.advisory (.busOverload v s.m.bLim k)) { w with overload := none }
    (s.c.phase = .config → answers u)
    ∧ (s.c.phase = .run → ¬ above → answers { u with overload := none })
    ∧ (s.c.phase = .run → above → elapsed start s.m.now 500 = false → answers { u with overload := some start })
    ∧ (s.c.phase = .run → above → elapsed start s.m.now 500 = true →
        ((∀ a ∈ s.u.admissions, a.consumer = .awning) → answers (told none u))
        ∧ ∀ older a newer, s.u.admissions = older ++ a :: newer → a.consumer ≠ .awning →
            (∀ b ∈ newer, b.consumer = .awning) →
            answers (told (some a.consumer) (shed x a .shedOverload [] u))
            ∧ (shed x a .shedOverload [] u).admissions = s.u.admissions.filter (fun b => b.consumer != a.consumer)
            ∧ (shed x a .shedOverload [] u).budgetQueue = s.u.budgetQueue ++ [
                { consumer := a.consumer, allocation := a.allocation, arrival := s.m.now, cause := .shedOverload
                  earliest := s.m.now + 2000#32 }]))
  ∧ ∀ (v : Nat) (s : State), v ≤ 3000 →
      let confirmed := s.ctx.general 4 < v ∧ elapsed (s.m.overpressure.getD s.m.now) s.m.now 200 = true
      ∃ t, exec (.pmanSample v) s = .next t ∧ t.m.pmanRange = .inRange
        ∧ { t.m with pmanRange := s.m.pmanRange, overpressure := s.m.overpressure } = s.m
        ∧ (v ≤ s.ctx.general 4 → t.m.overpressure = none)
        ∧ (s.ctx.general 4 < v → ¬ confirmed → t.m.overpressure = some (s.m.overpressure.getD s.m.now))
        ∧ (confirmed → t.m.overpressure = none ∧ codeStands .coach .overpressure t.u ∧ t.u.chainEn = false)

/-! ## Chassis, axes, jacks, wind (Chapters 1, 5, 7, 8) -/

/-- A sample of a jack's channel, sampled for jacks 4 and 5 only with the JACKS6 strap, is its last in-range value, or,
out of range, leaves that value and, first in RUN, puts PJ_RANGE on JACKS: PJ_SAMPLE (R94, R119, R140). In the event of
a sample in range, here with no other group moving: in a SEEK or RESEEK step the valve of a present jack is DOWN while
it is not in CONTACT and OFF while it is; with every present jack in CONTACT a seek ends COMPLETED, the set GROUNDED, or
of an AUTO operation goes on to its SETTLE step, and a reseek goes on to the next SETTLE step, or with the UNREACHABLE
mark ends UNREACHABLE, the set GROUNDED. An idle set whose contact flag the sample changed takes its settled state, but
stays LEVELLED while every present jack is in CONTACT; a sample that changes no contact flag leaves its state (R120,
R124, R127, R129, R130). That a sample of an unsampled channel changes nothing (log 38), that a range is recorded in RUN
alone (log 45), and that CONTACT is read as the contact flag (log 25), are the model's choice. -/
def Obligations.JackSamplesHoldTheLastInRangeValue : Prop :=
  ∀ (j : Fin 6) (v : Int) (s : State),
    let ranges := fun r => if s.c.phase = .run then s.m.pjRange.set j r else s.m.pjRange
    let m : Measured := { s.m with pjLast := s.m.pjLast.set j (some v), pjRange := ranges .inRange }
    let x : Ctx := { m := m, c := s.c }
    ((j.val < 4 ∨ s.m.straps.jacks6 = true) → 0 ≤ v → v ≤ 3000 →
      ∃ t, exec (.pjSample j v) s = .next t ∧ t.m = m
        ∧ (noRequestWaits s.c → s.m.roadSpeed < 2 → onlyMoves .jacks s.u →
          (s.u.jacks.motion = none → t.u.jacks.motion = none ∧ t.u.jacks.state =
            if x.contact j = s.ctx.contact j then s.u.jacks.state else jacksFollow x s.u.jacks.state)
          ∧ ∀ mo ∈ s.u.jacks.motion,
            (mo.step = .seek →
              seekLeaves x mo s.u.jacks.state (if mo.kind = .auto then none else some .completed) s t)
            ∧ (mo.step = .reseek →
              seekLeaves x mo s.u.jacks.state (if mo.unreachable = true then some .unreachable else none) s t)))
    ∧ ((j.val < 4 ∨ s.m.straps.jacks6 = true) → (v < 0 ∨ 3000 < v) →
      ∃ t, exec (.pjSample j v) s = .next t ∧ t.m = { s.m with pjRange := ranges .outOfRange }
        ∧ (s.c.phase = .run → s.m.pjRange[j] = .inRange → codeStands (.group .jacks) .pjRange t.u))
    ∧ (4 ≤ j.val → s.m.straps.jacks6 = false → exec (.pjSample j v) s = .next s)

/-- A tilt sample in range joins its row, which keeps the last eight; one out of range empties it and, first in RUN,
puts TILT_RANGE on JACKS; the average of a full row is its sum divided by eight, rounded toward zero: TILT_SAMPLE (R126,
R140). In the event of a sample in range, here with no group but the jacks moving: a LIFT whose axis reads at or below
its threshold or the tolerance is over, its valves closed, and the reseek begins with a new seek deadline, which with
every present jack in CONTACT goes on in the same event; any other lift with no jack at its max stroke goes on as it
was. With both rows full an idle LEVELLED set watches for drift: no error above twice the tolerance ends the
measurement; one above it starts it; and 60 s after its start ADVISORY(DRIFT) with both averages goes to the holder of
the jacks, or by least attention, and the measurement is none. The set stays LEVELLED; a set in any other state has no
measurement (R127 to R130, R137; CONTACT as the contact flag, log 25, DEDUCED). -/
def Obligations.TiltRowsHoldTheLastEightSamples : Prop :=
  (∀ (v : Int) (s : State), -1500 ≤ v → v ≤ 1500 →
    (∃ t, exec (.tiltSample .x v) s = .next t ∧ t.m.tiltX = (s.m.tiltX ++ [v]).rtake 8 ∧ t.m.tiltY = s.m.tiltY
      ∧ { t.m with tiltX := s.m.tiltX, tiltXRange := s.m.tiltXRange } = s.m)
    ∧ (∃ t, exec (.tiltSample .y v) s = .next t ∧ t.m.tiltY = (s.m.tiltY ++ [v]).rtake 8 ∧ t.m.tiltX = s.m.tiltX
      ∧ { t.m with tiltY := s.m.tiltY, tiltYRange := s.m.tiltYRange } = s.m)
    ∧ ∀ a : TiltAxis, ∃ t, exec (.tiltSample a v) s = .next t
      ∧ (t.u.jacks.state ≠ .levelled → t.u.jacks.drift = none)
      ∧ (noRequestWaits s.c → s.m.roadSpeed < 2 → onlyMoves .jacks s.u →
        let x : Ctx := { m := t.m, c := s.c }
        (∀ mo ∈ s.u.jacks.motion, mo.step = .lift →
          let ends := mo.liftAxis = some a ∧ (v.natAbs ≤ mo.threshold ∨ v.natAbs ≤ x.tolerance)
          let reseek : JackMotion := { mo with
            step := .reseek, deadline := some (s.m.now + BitVec.ofNat 32 (x.jackField 3 * 1000)), resume := none
            liftAxis := none, lifted := [], threshold := 0 }
          (ends → seekLeaves x reseek .levelling (if mo.unreachable = true then some .unreachable else none) s t)
          ∧ (¬ ends → (∀ j ∈ mo.lifted, (s.m.counterJ[j]).count < x.maxStroke) →
            t.u.jacks.motion = some mo ∧ t.u.image.jackValve = s.u.image.jackValve))
        ∧ (s.u.jacks.motion = none → s.u.jacks.state = .levelled → t.m.tiltX.length = 8 → t.m.tiltY.length = 8 →
          let average := fun row : List Int => row.sum.tdiv 8
          let drifts := 2 * x.tolerance < (average t.m.tiltX).natAbs ∨ 2 * x.tolerance < (average t.m.tiltY).natAbs
          let since := s.u.jacks.drift.getD s.m.now
          t.u.jacks.state = .levelled
          ∧ (¬ drifts → t.u.jacks.drift = none)
          ∧ (drifts → elapsed since s.m.now 60000 = false → t.u.jacks.drift = some since)
          ∧ (drifts → elapsed since s.m.now 60000 = true → t.u.jacks.drift = none
            ∧ ∀ l, (match holderOf s.u .jacks with | some (.link k) => k = l | _ => leastChooses x l) →
              noticeWaits s t l (.advisory (.drift (average t.m.tiltX) (average t.m.tiltY)))))))
  ∧ (∀ (v : Int) (s : State), v < -1500 ∨ 1500 < v →
    (∃ t, exec (.tiltSample .x v) s = .next t ∧ t.m.tiltX = []
      ∧ { t.m with tiltX := s.m.tiltX, tiltXRange := s.m.tiltXRange } = s.m
      ∧ (s.c.phase = .run → s.m.tiltXRange = .inRange → codeStands (.group .jacks) .tiltRange t.u))
    ∧ ∃ t, exec (.tiltSample .y v) s = .next t ∧ t.m.tiltY = []
      ∧ { t.m with tiltY := s.m.tiltY, tiltYRange := s.m.tiltYRange } = s.m
      ∧ (s.c.phase = .run → s.m.tiltYRange = .inRange → codeStands (.group .jacks) .tiltRange t.u))
  ∧ ∀ row : List Int, row.length = 8 → rowAverage row = row.sum.tdiv 8

/-- An SPD pulse is counted and nothing else; at the end of a 1000 ms window road speed is the count x 3600 / the pulses
per km, rounded down and held at 150, and a new window begins with count 0; before the commit 8000 pulses make a km:
SPD_PULSE, ROAD_SPEED_WINDOW_END (R15). A road speed below 2 ends the presence of ROAD_MOTION. One of 2 or more in RUN
while the coach is not travel-ready, here with no request waiting and no step at its end, puts ROAD_MOTION on COACH: the
record ACTIVE, CHAIN_EN low, and the code present for as long as the coach, whose motions the halt has ended, is not
travel-ready. One of 2 or more with the coach travel-ready and nothing moving ends its presence (R172, R175). -/
def Obligations.RoadSpeedIsMeasuredByTheWindow : Prop :=
  ∀ s : State,
    let speed := min 150 (s.m.spdCount * 3600 / s.ctx.general 5)
    let m : Measured := { s.m with roadSpeed := speed, spdCount := 0, windowStart := s.m.windowStart + 1000#32 }
    let x : Ctx := { m := m, c := s.c }
    let present := fun u : Units => marked (faultOf u .coach) .roadMotion
    exec .spdPulse s = .next { s with m := { s.m with spdCount := s.m.spdCount + 1 } }
    ∧ (s.c.profile = none → s.ctx.general 5 = 8000)
    ∧ (elapsed s.m.windowStart s.m.now 1000 = true →
        ∃ t, exec .roadSpeedWindowEnd s = .next t ∧ t.m = m
          ∧ (speed < 2 → present t.u = false)
          ∧ (noRequestWaits s.c → 2 ≤ speed →
            (s.c.phase = .run → travelReady x s.u = false → stepDue x s.u = none →
              codeStands .coach .roadMotion t.u
              ∧ (present s.u = false → (faultOf t.u .coach).state = .active ∧ t.u.chainEn = false
                ∧ present t.u = !travelReady t.ctx t.u))
            ∧ (travelReady x s.u = true → (∀ g, motionRequester s.u g = none) → s.u.awning.retract = none →
              present t.u = false)))

/-- The ESTOP input at its asserted level sets the field, puts ESTOP on COACH and leaves CHAIN_EN low, in either phase;
released for 100 ms it clears the field; neither writes anything else of the measured part: ESTOP_ASSERTED,
ESTOP_RELEASED (R15, R172, R175). -/
def Obligations.EstopHaltsTheCoach : Prop :=
  ∀ s : State,
    (s.m.estop = false → ∃ t, exec .estopAsserted s = .next t ∧ t.m = { s.m with estop := true }
      ∧ codeStands .coach .estop t.u ∧ t.u.chainEn = false)
    ∧ (s.m.estop = true → ∃ t, exec .estopReleased s = .next t ∧ t.m = { s.m with estop := false }
        ∧ (s.u.chainEn = false → t.u.chainEn = false))

/-- A pulse stamps its counter with the coach time, and moves the count by one in the direction the governing channel
shows, held at -32768 and 32767, with the validity kept; every other counter and measured value stays, and a pulse with
no direction shown changes nothing else in the whole state: AXIS_PULSE. The governing channel of a room end is its
motor, OUT up and IN down, or, of end A of a hydraulic room, its valve, EXTEND up and RETRACT down; of a jack its valve,
DOWN up and UP down; of the awning its motor, OUT up and IN down (R86). A counted pulse is dealt with by the unit that
writes the channel: a room's tests SYNC, the end position, the pin release, the sync hold and the slow zone; the jacks'
NO_GROUND; the awning's OVERRUN, the end position and the slow zone (R89 to R91, R103, R125, R145, R154; the order at
one room pulse is the model's choice, log 26; so is that the end that gave the pulse is the one tested, log 75). Read by
the model: an end held when the other end is stopped takes its shaped duty again in that event, with no new ramp (log
48); OVERRUN at the crossing pulse alone (log 44); CONTACT as the contact flag (log 25), all three DEDUCED. In its
event, here with no other group moving: the last driven end of an extend at its end position ends the motion, the room
OUT at the stroke and PARTIAL short of it; a lifted jack at the max stroke ends the lift UNREACHABLE-marked in the
reseek, which ends with every jack in CONTACT, the set GROUNDED; a jog ends with every jack of its set at its limit, and
a jack at its limit is closed; the awning at its end position is OUT with its motion ended (R103, R129 to R131, R145).
-/
def Obligations.PulsesCountInTheGoverningDirection : Prop :=
  (∀ (a : Axis) (s : State),
    let k := s.m.counter a
    let d := governed s.ctx s.u a
    let k' : Counter := { k with count := max (-32768) (min 32767 (k.count + d)), lastPulse := some s.m.now }
    (∃ t, exec (.axisPulse a) s = .next t ∧ t.m = s.m.withCounter a k'
        ∧ t.m.counter a = k' ∧ ∀ b, b ≠ a → t.m.counter b = s.m.counter b)
    ∧ (d = 0 → exec (.axisPulse a) s = .next { s with m := s.m.withCounter a k' })
    ∧ (d ≠ 0 →
      let x : Ctx := { m := s.m.withCounter a k', c := s.c }
      ∃ w, exec (.axisPulse a) s = .next (unitEvent s x.m fun _ _ => w) ∧ match a with
        | .roomEnd n e => roomPulseLeaves s.ctx x n e s.u w
        | .jack j => jackPulseLeaves x j s.u w
        | .awning => awningPulseLeaves s.ctx x s.u w)
    ∧ (d ≠ 0 → noRequestWaits s.c → s.m.roadSpeed < 2 →
      let x : Ctx := { m := s.m.withCounter a k', c := s.c }
      ∃ t, exec (.axisPulse a) s = .next t ∧ match a with
        | .roomEnd n e => onlyMoves (.room n) s.u → ∀ mo ∈ s.u.rooms[n].motion,
          let stop := mo.target.getD (x.roomStroke n)
          mo.step = .drive → mo.pinDeadline = none → mo.dir = .outward → stop ≤ x.endCount n e →
          (∀ o ∈ x.ends n, o ≠ e → governed s.ctx s.u (.roomEnd n o) = 0) →
          (x.electric n = true → (x.m.counterA[n]).valid = (x.m.counterB[n]).valid →
            (x.endCount n .a - x.endCount n .b).natAbs ≤ x.roomField n 11) →
          t.u.rooms[n].motion = none ∧ t.u.rooms[n].state = (if stop = x.roomStroke n then .out else .partway)
          ∧ outputsOff (.room n) t.u ∧ drawsNothing (.room n) s.u t.u
        | .jack j => onlyMoves .jacks s.u → ∀ mo ∈ s.u.jacks.motion,
          (mo.step = .lift → j ∈ mo.lifted → x.maxStroke ≤ (x.m.counterJ[j]).count →
            (x.allContact = true → t.u.jacks.motion = none ∧ t.u.jacks.state = .grounded ∧ outputsOff .jacks t.u)
            ∧ (x.allContact = false → t.u.jacks.motion = some { mo with
                step := .reseek, deadline := some (s.m.now + BitVec.ofNat 32 (x.jackField 3 * 1000)), resume := none
                liftAxis := none, lifted := [], threshold := 0, unreachable := true }
              ∧ ∀ i : Fin 6, t.u.image.jackValve[i]
                = if x.jackPresent i = true ∧ x.contact i = false then .down else .off))
          ∧ (mo.step = .jog → jogLeaves x mo s.u t.u)
        | .awning => onlyMoves .awning s.u → s.m.wind.hold = false → s.u.awning.ignitionMark = false →
          ∀ mo ∈ s.u.awning.motion, mo.step = .drive → mo.dir = .outward →
          mo.target.getD x.awningStroke ≤ x.m.counterAw.count →
          (x.m.counterAw.count ≤ x.awningStroke + 50 ∨ x.awningStroke + 50 < s.m.counterAw.count
            ∨ s.m.counterAw.valid = false) →
          t.u.awning.motion = none ∧ t.u.awning.state = .out ∧ outputsOff .awning t.u ∧ drawsNothing .awning s.u t.u))
  ∧ ∀ (x : Ctx) (u : Units) (n : Fin 6),
    let way := fun d : MotorDir => if d = .outward then (1 : Int) else if d = .inward then -1 else 0
    (x.electric n = true → governed x u (.roomEnd n .a) = way (u.image.motorA[n]).dir
      ∧ governed x u (.roomEnd n .b) = way (u.image.motorB[n]).dir)
    ∧ (x.electric n = false → governed x u (.roomEnd n .b) = 0 ∧ governed x u (.roomEnd n .a)
        = if u.image.roomValve[n] = .extend then 1 else if u.image.roomValve[n] = .retract then -1 else 0)
    ∧ (governed x u (.jack n)
        = if u.image.jackValve[n] = .down then 1 else if u.image.jackValve[n] = .up then -1 else 0)
    ∧ governed x u .awning = way u.image.awningMotor.dir

/-- A switch takes its new state; a home switch that is made sets its counter VALID at 0 with the pulse stamp kept, and
no other counter changes; a switch that opens changes no counter: IN_SWITCH_CHANGE, LOCK_SWITCH_CHANGE,
JACK_STOWED_SWITCH_CHANGE, AWNING_STOWED_SWITCH_CHANGE (R85, R87). An in-switch made at an end that a retract drives IN
stops the end, with HOME_CORRECTED offered where a VALID count had drifted by more than 50 (R104). In the switch's
event, here with no other group moving: the room's in-switch made ends the drive step, the motion ended and the room
STOWED without a lock or with it ENGAGED, and the room otherwise PINNING with a new pin deadline; the lock's ENGAGED
ends PIN_ENGAGE in STOWED; a made stowed switch closes its jack, a retract ending STOWED with the last one and a jog UP
with every jack of its set at its limit; the awning's ends an IN drive step in STOWED (R104, R105, R131, R132, R145).
The lock's WITHDRAWN, made in UNPIN with its pin deadline running, completes the withdrawal, and the room asks for its
drive and starts it or waits for it, here with no internal retract to begin (R101, R102). An idle room, jack set or
awning takes its settled state as a switch of it changes: an OUT room stays OUT where that state is PARTIAL, a LEVELLED
set stays LEVELLED with every present jack in CONTACT, and the awning keeps its state while a shadowed room is active
(R96, R120, R142; CONTACT as the contact flag, log 25, DEDUCED). A room that leaves STOWED by its switch ends a retract
of the jacks STOPPED, the set settled (R132, R133). -/
def Obligations.HomeSwitchesZeroTheirCounter : Prop :=
  ∀ (n : Fin 6) (made : Bool) (s : State),
    let home := fun k : Counter => if made then { k with count := 0, valid := true } else k
    (∀ e, s.ctx.inSwitch n e ≠ made → ∃ t, exec (.inSwitchChange n e made) s = .next t
      ∧ t.ctx.inSwitch n e = made
      ∧ ∀ a, t.m.counter a = if a = .roomEnd n e then home (s.m.counter a) else s.m.counter a)
    ∧ (s.m.jackStowed[n] ≠ made → ∃ t, exec (.jackStowedSwitchChange n made) s = .next t
        ∧ t.m.jackStowed = s.m.jackStowed.set n made
        ∧ ∀ a, t.m.counter a = if a = .jack n then home (s.m.counter a) else s.m.counter a)
    ∧ (s.m.awningStowed ≠ made → ∃ t, exec (.awningStowedSwitchChange made) s = .next t
        ∧ t.m = { s.m with awningStowed := made, counterAw := home s.m.counterAw })
    ∧ ((s.m.roomSw[n]).engaged ≠ made → ∃ t, exec (.lockSwitchChange n .engaged made) s = .next t
        ∧ t.m = { s.m with roomSw := s.m.roomSw.set n { s.m.roomSw[n] with engaged := made } })
    ∧ ((s.m.roomSw[n]).withdrawn ≠ made → ∃ t, exec (.lockSwitchChange n .withdrawn made) s = .next t
        ∧ t.m = { s.m with roomSw := s.m.roomSw.set n { s.m.roomSw[n] with withdrawn := made } })
    ∧ (∀ e, s.ctx.inSwitch n e = false → governed s.ctx s.u (.roomEnd n e) < 0 →
        ∀ mo ∈ s.u.rooms[n].motion, mo.step = .drive → mo.dir = .inward →
        let before := s.m.counter (.roomEnd n e)
        ∃ (m : Measured) (w : Units), exec (.inSwitchChange n e true) s = .next (unitEvent s m fun _ _ => w)
          ∧ (s.ctx.electric n = true → imageMotor w.image n e = { dir := .none, duty := 0 }
            ∧ w.rooms[n].syncHold = none)
          ∧ (s.ctx.electric n = false → w.image.roomValve[n] = .off)
          ∧ (before.valid = true → 50 < before.count.natAbs → ∀ l, addressed s.ctx mo.requester mo.route l →
            offeredTo s.ctx l (.advisory (.homeCorrected n e before.count)) w))
    ∧ (noRequestWaits s.c → s.m.roadSpeed < 2 →
      (∀ e, s.ctx.inSwitch n e = false → onlyMoves (.room n) s.u → ∃ t, exec (.inSwitchChange n e true) s = .next t
        ∧ ∀ mo ∈ s.u.rooms[n].motion, mo.step = .drive → mo.dir = .inward → mo.pinDeadline = none →
          t.ctx.roomIn n = true → outputsOff (.room n) t.u ∧ drawsNothing (.room n) s.u t.u
          ∧ (s.ctx.locked n = false ∨ s.ctx.lockState n = .engaged →
            t.u.rooms[n].motion = none ∧ t.u.rooms[n].state = .stowed)
          ∧ (s.ctx.locked n = true → s.ctx.lockState n ≠ .engaged → t.u.rooms[n].state = .pinning
            ∧ t.u.rooms[n].motion = some { mo with
                step := .pinEngage, pending := none
                pinDeadline := some (s.m.now + BitVec.ofNat 32 (s.ctx.timing 4)), dwellEnd := none
                lostDrive := false, lostPin := false, lostTurn := false }))
      ∧ ((s.m.roomSw[n]).engaged = false → (s.m.roomSw[n]).withdrawn = false → s.ctx.locked n = true →
        onlyMoves (.room n) s.u → ∃ t, exec (.lockSwitchChange n .engaged true) s = .next t
        ∧ ∀ mo ∈ s.u.rooms[n].motion, mo.step = .pinEngage → t.u.rooms[n].motion = none
          ∧ t.u.rooms[n].state = .stowed ∧ outputsOff (.room n) t.u ∧ drawsNothing (.room n) s.u t.u)
      ∧ (s.m.jackStowed[n] = false → onlyMoves .jacks s.u → ∃ t, exec (.jackStowedSwitchChange n true) s = .next t
        ∧ ∀ mo ∈ s.u.jacks.motion, (mo.step = .jog → jogLeaves t.ctx mo s.u t.u)
          ∧ (mo.step = .retract →
            (t.ctx.jacksStowed = true → t.u.jacks.motion = none ∧ t.u.jacks.state = .stowed
              ∧ outputsOff .jacks t.u ∧ drawsNothing .jacks s.u t.u)
            ∧ (t.ctx.jacksStowed = false → t.u.jacks.motion = some mo ∧ valvesAtLimits t.ctx s.u t.u)))
      ∧ (s.m.awningStowed = false → onlyMoves .awning s.u → ∃ t, exec (.awningStowedSwitchChange true) s = .next t
        ∧ ∀ mo ∈ s.u.awning.motion, mo.step = .drive → mo.dir = .inward → t.u.awning.motion = none
          ∧ t.u.awning.state = .stowed ∧ outputsOff .awning t.u ∧ drawsNothing .awning s.u t.u)
      ∧ ((s.m.roomSw[n]).engaged = false → (s.m.roomSw[n]).withdrawn = false → s.ctx.locked n = true →
        onlyMoves (.room n) s.u → s.m.wind.hold = false → s.u.awning.ignitionMark = false →
        ∃ t, exec (.lockSwitchChange n .withdrawn true) s = .next t
        ∧ ∀ mo ∈ s.u.rooms[n].motion, mo.step = .unpin → mo.pinDeadline.isSome = true → mo.dir = .outward →
          mo.begun = false → (∀ e ∈ s.ctx.ends n, s.ctx.endCount n e < mo.target.getD (s.ctx.roomStroke n)) →
          withdrawalLeaves t.ctx n mo s.u t.u)
      ∧ (∀ i, (∃ e, i = .inSwitchChange n e made ∧ s.ctx.inSwitch n e ≠ made)
            ∨ (i = .lockSwitchChange n .engaged made ∧ (s.m.roomSw[n]).engaged ≠ made)
            ∨ (i = .lockSwitchChange n .withdrawn made ∧ (s.m.roomSw[n]).withdrawn ≠ made) →
        s.ctx.roomPresent n = true → onlyMoves .jacks s.u → ∃ t, exec i s = .next t
        ∧ t.u.rooms[n].motion = none ∧ t.u.rooms[n].state = roomFollows t.ctx n s.u.rooms[n].state
        ∧ (s.u.rooms[n].state = .stowed → t.ctx.roomSettled n ≠ .stowed → s.ctx.jacksStowed = false →
          ∀ mo ∈ s.u.jacks.motion, mo.kind = .retract → mo.step = .turnWait ∨ mo.step = .retract ∨ mo.step = .pause →
          t.u.jacks.motion = none ∧ t.u.jacks.state = t.ctx.jacksSettled ∧ outputsOff .jacks t.u
          ∧ drawsNothing .jacks s.u t.u ∧ ∀ l, addressed s.ctx mo.requester mo.route l →
            noticeWaits s t l (.motionDone .jacks .stopped (s.ctx.position .jacks))))
      ∧ (s.m.jackStowed[n] ≠ made → s.ctx.jackPresent n = true → onlyMoves .jacks s.u → s.u.jacks.motion = none →
        ∃ t, exec (.jackStowedSwitchChange n made) s = .next t
        ∧ t.u.jacks.motion = none ∧ t.u.jacks.state = jacksFollow t.ctx s.u.jacks.state)
      ∧ (s.m.awningStowed ≠ made → s.ctx.awningPresent = true → onlyMoves .awning s.u → s.u.awning.motion = none →
        s.m.wind.hold = false → s.u.awning.ignitionMark = false → activeShadowed s.ctx s.u = [] →
        ∃ t, exec (.awningStowedSwitchChange made) s = .next t
        ∧ t.u.awning.motion = none ∧ t.u.awning.state = awningFollows t.ctx s.u.awning.state))
    ∧ (s.m.awningStowed ≠ made → s.u.awning.motion = none → s.u.awning.retract = none →
      activeShadowed s.ctx s.u ≠ [] →
      ∃ (m : Measured) (w : Units), exec (.awningStowedSwitchChange made) s = .next (unitEvent s m fun _ _ => w)
        ∧ w.awning.state = s.u.awning.state)

/-- An axis whose drive has been on without a break to 300 ms after its drive-on stamp and its last pulse, and for the
stall window beyond the later of the two, puts STALL on its present group: STALL (R92). The window is the room's value,
600 ms for a jack and the awning. That the command changes nothing before the window has passed is the model's choice
(log 2). -/
def Obligations.StallsAreRaisedAfterTheWindow : Prop :=
  ∀ (a : Axis) (s : State) (t0 start : CoachTime),
    s.u.driveOn[axisIdx a] = some t0 →
    (start = match (s.m.counter a).lastPulse with
      | some p => if reached (t0 + 300#32) p then p else t0 + 300#32
      | none => t0 + 300#32) →
    let g : Group := match a with | .roomEnd n _ => .room n | .jack _ => .jacks | .awning => .awning
    let window := match a with | .roomEnd n _ => s.ctx.roomField n 8 | _ => 600
    (reached (start + BitVec.ofNat 32 window) s.m.now = true → s.ctx.present g = true →
      ∃ t, exec (.stall a) s = .next t ∧ t.m = s.m ∧ codeStands (.group g) .stall t.u)
    ∧ (reached (start + BitVec.ofNat 32 window) s.m.now = false → exec (.stall a) s = .next s)

/-- The soft-start ramp is 20 + 80 x t / 500 rounded down, 100 from 500 ms on; in the slow zone the duty is at most 40;
an axis is in its slow zone while its counter is INVALID or its count lies within the zone of either end (R88, R89). -/
def Obligations.DutiesFollowRampAndSlowZone : Prop :=
  (∀ start now : CoachTime,
    let t := (now - start).toNat
    shapedDuty false start now = (if 500 ≤ t then 100 else 20 + 80 * t / 500)
    ∧ shapedDuty true start now = min 40 (if 500 ≤ t then 100 else 20 + 80 * t / 500))
  ∧ (∀ (x : Ctx) (n : Fin 6) (e : RoomEnd), x.roomSlow n e = true ↔
      (x.m.counter (.roomEnd n e)).valid = false ∨ x.endCount n e ≤ x.roomField n 9
        ∨ (x.roomField n 5 : Int) - x.roomField n 9 ≤ x.endCount n e)
  ∧ ∀ x : Ctx, x.awningSlow = true ↔ x.m.counterAw.valid = false
      ∨ x.m.counterAw.count ≤ (x.awningField 1 : Int) / 10
      ∨ (x.awningField 1 : Int) - (x.awningField 1 : Int) / 10 ≤ x.m.counterAw.count

/-- The first anemometer pulse only takes the stamp; a later one adds the speed of its period, the constant divided by
the period, rounded down and held at 200, for a period of 1 to 2000 ms, and 0 for a longer one; for a period of 0 ms the
speed is at most 200 (its quotient is free, log 12); nothing else changes: ANEMOMETER_PULSE (R148). -/
def Obligations.AnemometerPeriodsGiveSpeeds : Prop :=
  ∀ s : State,
    (s.m.wind.lastPulse = none →
      exec .anemometerPulse s = .next { s with m := { s.m with wind := { s.m.wind with lastPulse := some s.m.now } } })
    ∧ ∀ t0, s.m.wind.lastPulse = some t0 → ∃ v,
        exec .anemometerPulse s = .next { s with m := { s.m with wind := { s.m.wind with
          lastPulse := some s.m.now, lastSpeed := some v, speeds := s.m.wind.speeds ++ [v] } } }
        ∧ (2000 < (s.m.now - t0).toNat → v = 0)
        ∧ (0 < (s.m.now - t0).toNat → (s.m.now - t0).toNat ≤ 2000 →
            v = min 200 (s.ctx.awningField 4 / (s.m.now - t0).toNat))
        ∧ ((s.m.now - t0).toNat = 0 → v ≤ 200)

/-- A second boundary puts the average of the second in the ring of thirty, moves the last windy second at an average at
or above the sustained threshold, and decides the hold: SET by a gust or by sustained wind, CLEAR once neither is
present and the hold-off has passed since the last windy second; the next second starts with no speeds:
WIND_SECOND_BOUNDARY (R148, R149). That a hold SET with no last windy second, which R149 holds cannot arise, stays SET
is the model's choice (log 64). -/
def Obligations.SecondBoundariesDecideTheWindHold : Prop :=
  ∀ s : State, elapsed s.m.wind.secondStart s.m.now 1000 = true →
    let w := s.m.wind
    let gust := s.ctx.awningField 5
    let sustained := s.ctx.awningField 6
    ∃ t avg, exec .windSecondBoundary s = .next t ∧ { t.m with wind := w } = s.m
      ∧ (w.speeds ≠ [] → avg = w.speeds.sum / w.speeds.length)
      ∧ (w.speeds = [] → (∀ p ∈ w.lastPulse, 2000 < (s.m.now - p).toNat) → avg = 0)
      ∧ (w.speeds = [] → (∃ p ∈ w.lastPulse, (s.m.now - p).toNat ≤ 2000) → ∀ v, w.lastSpeed = some v → avg = v)
      ∧ t.m.wind.speeds = [] ∧ t.m.wind.ring = (w.ring ++ [avg]).rtake 30
      ∧ t.m.wind.secondStart = w.secondStart + 1000#32
      ∧ t.m.wind.lastWindy = (if sustained ≤ avg then some s.m.now else w.lastWindy)
      ∧ (gust ≤ avg → t.m.wind.hold = true)
      ∧ (((w.ring ++ [avg]).rtake 30).length = 30 → sustained ≤ ((w.ring ++ [avg]).rtake 30).sum / 30 →
          t.m.wind.hold = true)
      ∧ (avg < gust →
          (((w.ring ++ [avg]).rtake 30).length < 30 ∨ ((w.ring ++ [avg]).rtake 30).sum / 30 < sustained) →
          t.m.wind.hold = (w.hold && !(t.m.wind.lastWindy.any fun d =>
            reached (d + BitVec.ofNat 32 (s.ctx.awningField 7 * 60000)) s.m.now)))

/-! ## Lines (Chapter 9) -/

/-- A wired input that shows the debounced level is no longer timed; one that has shown the other level for the debounce
time gives its line that level; one that has not is timed from when it began to show it; the other lines keep their
levels and every line its polarity and debounce: LINE_DEBOUNCE_CHANGE (R157; the command's operands are the model's, log
20). An active virtual line whose refresh deadline is reached is inactive with no writer and no deadline, and the other
virtual lines stay as they are: VIRTUAL_LINE_DEADLINE (R159). The change of a line's activity is dealt with by its
entry: NONE has no effect; NOTICE sends LINE_EVENT on its route while unmasked, of a deactivation for LEVEL alone; an
EDGE MOTION delivers while unmasked and waits while masked; a LEVEL MOTION delivers once and marks itself in service,
and a deactivation clears the mark and ends the HOLD motion the line holds by the stop procedure of its group, RELEASED
(a room in PIN_ENGAGE finishes its step); PARK and IGN follow their lines, with their advisories and the ignition mark
(R21, R105, R112, R133, R138, R147, R150, R161 to R165). -/
def Obligations.LinesChangeAtDebounceAndDeadline : Prop :=
  (∀ (n : Fin 16) (v : Level) (since : CoachTime) (s : State),
    let w := s.c.wired[n]
    let d : Desk := { s.desk with c := { s.c with wired := s.c.wired.set n { w with level := v, timing := none } } }
    let active := w.polarity = .activeHigh ↔ v = .high
    (noRequestWaits s.c → ∃ t, exec (.lineDebounceChange n v since) s = .next t ∧ t.m = s.m
      ∧ (v = w.level → (t.c.wired[n]).level = w.level ∧ (t.c.wired[n]).timing = none)
      ∧ (v ≠ w.level → elapsed since s.m.now w.debounce = true →
          (t.c.wired[n]).level = v ∧ (t.c.wired[n]).timing = none)
      ∧ (v ≠ w.level → elapsed since s.m.now w.debounce = false →
          (t.c.wired[n]).level = w.level ∧ (t.c.wired[n]).timing = some since)
      ∧ (∀ k : Fin 16, k ≠ n → (t.c.wired[k]).level = (s.c.wired[k]).level)
      ∧ ∀ k : Fin 16, (t.c.wired[k]).polarity = (s.c.wired[k]).polarity
          ∧ (t.c.wired[k]).debounce = (s.c.wired[k]).debounce)
    ∧ (v ≠ w.level → elapsed since s.m.now w.debounce = true →
        (active → exec (.lineDebounceChange n v since) s
          = .next (settleEvent s s.m (activate s.m (.wired n) d) false))
        ∧ (¬ active → exec (.lineDebounceChange n v since) s
          = .next (settleEvent s s.m (deactivate s.m (.wired n) d) false))))
  ∧ (∀ (v : Fin 8) (s : State), (s.c.virt[v]).value = true →
    (∃ d ∈ (s.c.virt[v]).deadline, reached d s.m.now = true) →
    let d : Desk := { s.desk with c := { s.c with
      virt := s.c.virt.set v { s.c.virt[v] with value := false, writer := none, deadline := none } } }
    exec (.virtualLineDeadline v) s = .next (settleEvent s s.m (deactivate s.m (.virtual v) d) false)
    ∧ (noRequestWaits s.c → ∃ t, exec (.virtualLineDeadline v) s = .next t ∧ t.m = s.m
      ∧ (t.c.virt[v]).value = false ∧ (t.c.virt[v]).writer = none ∧ (t.c.virt[v]).deadline = none
      ∧ ∀ k : Fin 8, k ≠ v → (t.c.virt[k]).value = (s.c.virt[k]).value ∧ (t.c.virt[k]).writer = (s.c.virt[k]).writer
          ∧ (t.c.virt[k]).deadline = (s.c.virt[k]).deadline))
  ∧ ∀ (m : Measured) (l : Line) (d : Desk),
    let x := d.ctx m
    let e := entryOf d.c l
    let marked := fun b : Bool => { d.u with pendingMarks := d.u.pendingMarks.set (lineIdx l) b }
    let serving := fun b : Bool => withEntry d.c l { e with inService := b }
    (e.action = .none → activate m l d = d ∧ deactivate m l d = d)
    ∧ (e.action = .notice → e.mask = .masked → activate m l d = d ∧ deactivate m l d = d)
    ∧ (e.action = .notice → e.mask = .unmasked →
        activate m l d = { d with u := offerRoute x e.route (.lineEvent l true) d.u }
        ∧ deactivate m l d
          = if e.trigger = .level then { d with u := offerRoute x e.route (.lineEvent l false) d.u } else d)
    ∧ ((actionGroup e.action).isSome → e.trigger = .edge → deactivate m l d = d
        ∧ (e.mask = .masked → activate m l d = { d with u := marked true })
        ∧ (e.mask = .unmasked → activate m l d = { d with u := deliver x l e (marked false) }))
    ∧ (∀ g, actionGroup e.action = some g → e.trigger = .level →
        (e.mask = .masked ∨ e.inService = true → activate m l d = d)
        ∧ (e.mask = .unmasked → e.inService = false →
            activate m l d = { c := serving true, u := deliver x l e d.u })
        ∧ deactivate m l d = { c := serving false
                               u := if heldByLine d.u g l = true then stopMotion x g .released d.u else d.u }
        ∧ (heldByLine d.u g l = true → stopLeaves x g .released d.u (deactivate m l d).u
          ∧ (engaging d.u g → (deactivate m l d).u = d.u)))
    ∧ (e.action = .posture .park →
        activate m l d = { d with c := { d.c with parkSet := true } }
        ∧ deactivate m l d = { c := { d.c with parkSet := false }
                               u := if d.c.parkSet = true ∧ travelReady x d.u = false then
                                   offerAll x (.advisory .parkReleasedDeployed) d.u else d.u })
    ∧ (e.action = .posture .ign →
        deactivate m l d = { d with c := { d.c with ignOn := false } }
        ∧ (d.c.ignOn = true → activate m l d = { d with c := { d.c with ignOn := true } })
        ∧ (d.c.ignOn = false →
          let set := x.general 7 = 1 ∧ x.awningPresent = true ∧ d.u.awning.state ≠ .stowed
          let u := if set then { d.u with awning := { d.u.awning with ignitionMark := true } } else d.u
          activate m l d = { c := { d.c with ignOn := true }
                             u := if d.u.jacks.state = .stowed then u
                               else offerTo x .ml0 (.advisory (.jacksDownIgn d.u.jacks.state)) u }))

/-- LINES_SET is BAD_REQUEST with no or more than eight entries, refused NOT_CONFIGURED in CONFIG, and BAD_REQUEST for a
line named twice or a wired line, with no change; otherwise it is answered OK and the selected lines are written one
after another in the order V0 to V7: an ACTIVE one has the link as writer and a deadline one deadman window ahead, and
is activated if it was INACTIVE; one that was ACTIVE and is written INACTIVE loses writer and deadline and is
deactivated; the other lines stay as they are (R158, R191). MAP_WRITE with no entry is BAD_REQUEST; otherwise the first
that applies refuses it: CONFIG, a bad field or a LEVEL STOP, a POSTURE entry or action, an absent group, an entry in
service. Served, it writes its fields; a waiting activation is discarded by a field other than the mask, and the answer
says so (its byte: log 8), delivered by an unmasking alone, and kept otherwise; a LEVEL MOTION entry left unmasked on an
active line delivers; a level change that the new debounce time has passed takes effect (R157, R166, R167; empty lists:
log 31; with no new debounce time: log 66). A delivery is the motion or stop request of its action by WL, a LEVEL one in
HOLD mode under the line, and LINE_REFUSED where it is refused (R160). -/
def Obligations.LinesSetWritesTheSelectedLines : Prop :=
  (∀ (m : Measured) (l : Link) (tag : Byte) (sel : List (Line × Bool)) (d : Desk),
    let r := decideRequest m l tag (.linesSet sel) d
    let length := sel = [] ∨ 8 < sel.length
    let bad := ¬ (sel.map Prod.fst).Nodup ∨ ∃ n b, (Line.wired n, b) ∈ sel
    (length → r = (d, some (.badRequest, [])))
    ∧ (¬ length → d.c.phase = .config → r = (d, some (.notConfigured, [])))
    ∧ (¬ length → d.c.phase = .run → bad → r = (d, some (.badRequest, [])))
    ∧ (¬ length → d.c.phase = .run → ¬ bad → r.2 = some (.ok, [])
        ∧ (r.1 = (List.finRange 8).foldl (fun e n =>
            if (Line.virtual n, true) ∈ sel then lineWritten m l n true e
            else if (Line.virtual n, false) ∈ sel then lineWritten m l n false e else e) d)
        ∧ ∀ n : Fin 8,
          ((Line.virtual n, true) ∈ sel → (r.1.c.virt[n]).value = true ∧ (r.1.c.virt[n]).writer = some l
            ∧ (r.1.c.virt[n]).deadline = some (m.now + BitVec.ofNat 32 (d.ctx m).deadman))
          ∧ ((Line.virtual n, false) ∈ sel → (r.1.c.virt[n]).value = false
            ∧ ((d.c.virt[n]).value = true → (r.1.c.virt[n]).writer = none ∧ (r.1.c.virt[n]).deadline = none))
          ∧ ((∀ b, (Line.virtual n, b) ∉ sel) ∨ (d.c.virt[n]).value = false ∧ (Line.virtual n, true) ∉ sel →
            (r.1.c.virt[n]).value = (d.c.virt[n]).value
              ∧ (r.1.c.virt[n]).writer = (d.c.virt[n]).writer ∧ (r.1.c.virt[n]).deadline = (d.c.virt[n]).deadline)))
  ∧ (∀ (m : Measured) (l : Link) (tag : Byte) (line : Line) (fs : List MapField) (d : Desk),
    let x := d.ctx m
    let r := decideRequest m l tag (.mapWrite line fs) d
    let e := entryOf d.c line
    let e' := fs.foldl writeEntryField e
    let bad := ¬ (fs.map fieldIndex).Nodup ∨ (actionStops e'.action = true ∧ e'.trigger = .level)
      ∨ ∃ f ∈ fs, match f with
        | .polarity _ => ∃ n, line = .virtual n
        | .debounce ms => (∃ n, line = .virtual n) ∨ ms < 10 ∨ 200 < ms
        | .action (.posture _) => ∃ n, line = .virtual n
        | _ => False
    let chassis := (∃ i, e.action = .posture i) ∨ ∃ i, e'.action = .posture i
    let absent := fun g => actionGroup e'.action = some g ∧ x.present g = false
    let running := fs ≠ [] ∧ d.c.phase = .run ∧ ¬ bad
    (fs = [] → r = (d, some (.badRequest, [])))
    ∧ (fs ≠ [] → d.c.phase = .config → r = (d, some (.notConfigured, [])))
    ∧ (fs ≠ [] → d.c.phase = .run → bad → r = (d, some (.badRequest, [])))
    ∧ (running → chassis → r = (d, some (.locked, [])))
    ∧ (running → ¬ chassis → ∀ g, absent g → r = (d, some (.absent, [groupByte g])))
    ∧ (running → ¬ chassis → (∀ g, ¬ absent g) → e.inService = true → r = (d, some (.entryBusy, [])))
    ∧ (running → ¬ chassis → (∀ g, ¬ absent g) → e.inService = false →
        let waiting := d.u.pendingMarks[lineIdx line] = true
        let discard := waiting ∧ ∃ f ∈ fs, fieldIndex f ≠ 3
        let moves := (actionGroup e'.action).isSome = true
        let cleared : Units := { d.u with pendingMarks := d.u.pendingMarks.set (lineIdx line) false }
        let c : Setup := match line with
          | .wired n => { d.c with wired := d.c.wired.set n { fs.foldl writeWiredField d.c.wired[n] with map := e' } }
          | .virtual n => { d.c with virt := d.c.virt.set n { d.c.virt[n] with map := e' } }
        let x' : Ctx := { m := m, c := c }
        let delivers := moves ∧ e'.trigger = .level ∧ e'.mask = .unmasked ∧ lineActive c line = true
        let base := if discard then cleared else d.u
        let still := match line with
          | .virtual _ => True
          | .wired n => ∀ t ∈ (d.c.wired[n]).timing, elapsed t m.now (c.wired[n]).debounce = false
        r.2 = some (.ok, [if discard then 1 else 0])
        ∧ (still → (waiting → discard) → delivers →
            r.1 = { c := withEntry c line { e' with inService := true }, u := deliver x' line e' base })
        ∧ (still → (waiting → discard) → ¬ delivers → r.1 = { c := c, u := base })
        ∧ (still → waiting → ¬ discard → moves → e'.trigger = .edge →
            r.1 = { c := c, u := if e'.mask = .unmasked then deliver x' line e' cleared else d.u })
        ∧ ∀ n t, line = .wired n → (d.c.wired[n]).timing = some t → elapsed t m.now (c.wired[n]).debounce = true →
            (r.1.c.wired[n]).level ≠ (d.c.wired[n]).level ∧ (r.1.c.wired[n]).timing = none))
  ∧ ∀ (x : Ctx) (l : Line) (e : MapEntry) (u : Units),
    let level := e.trigger = .level
    let a : Asker := { who := .wl, line := if level then some l else none, route := e.route }
    let mode := if level then Mode.hold else .full
    let asked : Option (Units × Reply) := match e.action with
      | .roomMotion n .extend => some (roomMove x a (.room n) .outward mode none none u)
      | .roomMotion n .retract => some (roomMove x a (.room n) .inward mode none none u)
      | .roomMotion n .stop => some (roomStop x (.room n) u)
      | .jackMotion .auto => some (jackRequest x a { kind := .auto, mode := mode } none u)
      | .jackMotion .retract => some (jackRequest x a { kind := .retract, mode := mode } none u)
      | .jackMotion .stop => some (jackStop x u)
      | .awningMotion .outward => some (awningMove x a .outward mode none none u)
      | .awningMotion .inward => some (awningMove x a .inward mode none none u)
      | .awningMotion .stop => some (awningStop x u)
      | .none | .notice | .posture _ => none
    ∀ r, asked = some r →
      (r.2.1 = .ok ∨ r.2.1 = .accepted → deliver x l e u = r.1)
      ∧ (r.2.1 ≠ .ok → r.2.1 ≠ .accepted →
          r.1 = u ∧ deliver x l e u = offerRoute x e.route (.lineRefused l r.2.1 r.2.2) u)

/-! ## Driver chain (Chapter 5) -/

/-- Ten ms after the last frame started a frame starts, carrying the image with every drive output off while CHAIN_EN is
low: PERIODIC_FRAME_START. At the end of a frame's ten ms without its echo the echo is missing: the mismatch count rises
by one, or, at the second failure, returns to 0 with CHAIN_ECHO on COACH and CHAIN_EN low, and the next frame starts in
the event: ECHO_MISSING (R78, R79, R80). -/
def Obligations.FramesStartPeriodicallyAndAfterAMissingEcho : Prop :=
  ∀ s : State, noRequestWaits s.c →
    let started := fun t : State => ∃ f, t.u.flight = some f ∧ f.start = s.m.now ∧ t.u.frameStart = s.m.now
      ∧ t.u.changePending = false
      ∧ f.frame = if t.u.chainEn = true then t.u.image else { diverter := t.u.image.diverter }
    (s.u.flight = none → elapsed s.u.frameStart s.m.now 10 = true →
      ∃ t, exec .periodicFrameStart s = .next t ∧ t.m = s.m ∧ started t)
    ∧ (∀ f, s.u.flight = some f → elapsed f.start s.m.now 10 = true →
        ∃ t, exec .echoMissing s = .next t ∧ started t
          ∧ t.m = { s.m with mismatch := (if s.m.mismatch + 1 < 2 then s.m.mismatch + 1 else 0) }
          ∧ (1 ≤ s.m.mismatch → codeStands .coach .chainEcho t.u ∧ t.u.chainEn = false))

/-- The echo of the frame in flight is compared channel by channel and becomes the last echo: a match returns the
mismatch count to 0; a mismatch raises it by one, or, at the second failure, returns it to 0 with CHAIN_ECHO on COACH
and CHAIN_EN low; an echo with no frame in flight is discarded: ECHO_RECEIVED (R80). A trip flag the last echo did not
have puts TRIP on the present group of its channel, or PUMP_TRIP on COACH (R81); a hot board puts BOARD_HOT on COACH,
whose mark is cleared with none hot (R82); at a match of an all-off frame in RUN CHAIN_EN is high exactly where COACH is
left not ACTIVE (R83, R179); at a matching echo with no trip and no hot board, a record whose halt its frame was built
after is confirmed where the frame carries its channels off, and CLEARABLE with no mark set (R174). Each clear held for
a subject is decided: a trip on one of its channels raises that code, unless a CHAIN_ECHO or a BOARD_HOT raised by this
echo answers the clear first, and a hot board under it raises nothing, both answered STILL_ACTIVE; otherwise a CLEARABLE
record that nothing raised is EMPTY and the answer OK (R182, R183; the orders within one echo are the model's choice,
logs 55, 58, 59 and 60). -/
def Obligations.EchoesAreComparedWithTheirFrame : Prop :=
  ∀ (e : Echo) (s : State),
    (s.u.flight = none → exec (.echoReceived e) s = .next s)
    ∧ ∀ f, s.u.flight = some f →
        let matched := ∀ k, channelValue f.frame k = channelValue e.latched k
        let hot := ∃ b ∈ e.boards, b.hot = true
        let fresh := fun k => k ∈ e.trips ∧ ∀ p ∈ s.m.lastEcho, k ∉ p.trips
        let owned := fun (k : Subject) (ch : Fin 33) => k = .coach ∨ ∃ g, k = .group g ∧ channelOwner ch = some g
        (∃ t, exec (.echoReceived e) s = .next t
          ∧ (matched → t.m = { s.m with lastEcho := some e, mismatch := 0 })
          ∧ (¬ matched →
              t.m = { s.m with lastEcho := some e, mismatch := (if s.m.mismatch + 1 < 2 then s.m.mismatch + 1 else 0) }
              ∧ (1 ≤ s.m.mismatch → codeStands .coach .chainEcho t.u ∧ t.u.chainEn = false)))
        ∧ (noRequestWaits s.c → ∃ t, exec (.echoReceived e) s = .next t
          ∧ (∀ ch, fresh ch →
              (channelOwner ch = none → codeStands .coach .pumpTrip t.u ∧ t.u.chainEn = false)
              ∧ ∀ g, channelOwner ch = some g → s.ctx.present g = true → codeStands (.group g) .trip t.u)
          ∧ (hot → marked (faultOf s.u .coach) .boardHot = false → codeStands .coach .boardHot t.u ∧ t.u.chainEn = false)
          ∧ (¬ hot → marked (faultOf t.u .coach) .boardHot = false)
          ∧ (matched → imageAllOff f.frame = true → s.c.phase = .run →
              (t.u.chainEn = true ↔ (faultOf t.u .coach).state ≠ .active))
          ∧ (matched → e.trips = [] → ¬ hot → s.m.roadSpeed < 2 → ∀ k : Subject,
              f.confirms[subjectIdx k] = true → (∀ ch, owned k ch → channelOff (channelValue f.frame ch) = true) →
              (∀ h ∈ s.u.heldClears, h.subject ≠ k) →
              (faultOf s.u k).state = .active → (∀ c ∈ (faultOf s.u k).codes, c.2 = false) →
              faultOf t.u k = { faultOf s.u k with state := .clearable, confirmed := true }))
        ∧ ∃ (m : Measured) (w : Units), exec (.echoReceived e) s = .next (unitEvent s m fun _ _ => w)
          ∧ w.heldClears = []
          ∧ ∀ h ∈ s.u.heldClears,
            let answer := fun st : Status => (inPort s h.link).linked = true →
              ∃ r ∈ (w.out[linkIdx h.link]).line, r.kind = 0x9A#8 ∧ r.tag = h.tag ∧ r.status = st ∧ r.data = []
            let tripped := ∃ ch ∈ e.trips, owned h.subject ch
            let hotUnder := ∃ b ∈ e.boards, b.hot = true ∧ ∃ ch ∈ b.channels, owned h.subject ch
            let stillHeld := (matched ∨ s.m.mismatch = 0)
              ∧ (h.subject = .coach → hot → marked (faultOf s.u .coach) .boardHot = true)
            (tripped → answer .stillActive
              ∧ (stillHeld → ∃ ch ∈ e.trips, owned h.subject ch ∧ (channelOwner ch = none → codeStands .coach .pumpTrip w)
                ∧ ∀ g, channelOwner ch = some g → s.ctx.present g = true → codeStands (.group g) .trip w))
            ∧ (¬ tripped → hotUnder → answer .stillActive)
            ∧ (matched → e.trips = [] → ¬ hotUnder → (hot → marked (faultOf s.u .coach) .boardHot = true) →
                answer .ok ∧ faultOf w h.subject
                  = { state := .empty, codes := [], firstStamp := none, lastStamp := none, count := 0
                      detail := .none, confirmed := true }
                ∧ ∀ g, h.subject = .group g → s.ctx.present g = true →
                  (∀ n, g = .room n → w.rooms[n].state = s.ctx.roomSettled n)
                  ∧ (g = .jacks → w.jacks.state = s.ctx.jacksSettled ∧ ∀ j : Fin 6, w.jacks.fault[j] = false)
                  ∧ (g = .awning → w.awning.state = s.ctx.awningSettled))

/-! ## Timers of the motions and of the manifold (Chapters 4, 6, 7, 8) -/

/-- A pin deadline that is reached puts PIN_TIMEOUT on its present room; a SEEK or RESEEK deadline with a present jack
not in CONTACT puts SEEK_TIMEOUT on JACKS, a RETRACT deadline with a present jack not stowed RETRACT_TIMEOUT; nothing
measured changes: PIN_TIMEOUT, SEEK_TIMEOUT, RETRACT_TIMEOUT (R101, R105, R110, R125, R132). -/
def Obligations.ExpiredStepsRaiseTheirFault : Prop :=
  ∀ s : State,
    (∀ (n : Fin 6) (mo : RoomMotion) (d : CoachTime), s.u.rooms[n].motion = some mo → mo.pinDeadline = some d →
      reached d s.m.now = true → s.ctx.roomPresent n = true →
      ∃ t, exec (.pinTimeout n) s = .next t ∧ t.m = s.m ∧ codeStands (.group (.room n)) .pinTimeout t.u)
    ∧ (∀ (mo : JackMotion) (d : CoachTime), s.u.jacks.motion = some mo → mo.deadline = some d →
        reached d s.m.now = true →
        ((mo.step = .seek ∨ mo.step = .reseek) → (∃ j, s.ctx.jackPresent j = true ∧ s.ctx.contact j = false) →
          ∃ t, exec .seekTimeout s = .next t ∧ t.m = s.m ∧ codeStands (.group .jacks) .seekTimeout t.u)
        ∧ (mo.step = .retract → (∃ j, s.ctx.jackPresent j = true ∧ s.m.jackStowed[j] = false) →
          ∃ t, exec .retractTimeout s = .next t ∧ t.m = s.m ∧ codeStands (.group .jacks) .retractTimeout t.u))

/-- A step that ends at its moment ends in an event of its own: ROOM_DWELL_END, AWNING_DWELL_END, HOLD_DEADLINE_EXPIRY,
LIFT_DEADLINE, SETTLE_END, SWITCHING_END. A dwell end clears the dwell and asks for the drive in the new direction or
starts it; of the awning, where AWNING is admitted, it writes the motor in the awning's direction at the fresh ramp duty
of 20, or NONE where the awning stands at its end already, and otherwise the awning waits with its outputs as they are;
a hold's deadline ends the group's motion by its stop procedure, RELEASED (a room in PIN_ENGAGE finishes its step); a
lift's deadline closes its valves and begins the reseek with a new seek deadline (R105, R109, R112, R114, R128, R133,
R134, R146, R147). A settle with a present jack not in CONTACT begins the reseek, its pass not counted. Otherwise it
counts the pass: within the tolerance on both axes the operation ends COMPLETED with the set LEVELLED; outside it at the
twelfth pass it ends UNREACHABLE, the set GROUNDED; and before that the lift of the low side of the axis with the larger
error begins, pitch where the two are equal, with half the error as threshold and a deadline of 5000 ms, the lifted
jacks DOWN; with a lifted jack at the max stroke already no valve is written and the event, here with no other group
moving, ends UNREACHABLE with the set GROUNDED (R127 to R130). A switching end asks for the pump for the turn's user;
with no user the queue's head takes its turn, with a new switching where its circuit differs, or the manifold is IDLE
(R63). -/
def Obligations.TimedStepsEndAtTheirMoment : Prop :=
  ∀ s : State,
    (∀ (n : Fin 6) (mo : RoomMotion) (d : CoachTime), s.u.rooms[n].motion = some mo → mo.dwellEnd = some d →
      reached d s.m.now = true → exec (.roomDwellEnd n) s = .next (unitEvent s s.m (endDwell n))
      ∧ (mo.step ≠ .pause → endDwell n s.ctx s.u = driveAfterDwell s.ctx n
          { s.u with rooms := s.u.rooms.set n { s.u.rooms[n] with motion := some { mo with dwellEnd := none } } }))
    ∧ (∀ d, awningDwellEnd s.u = some d → reached d s.m.now = true →
        let v := endAwningDwell s.ctx s.u
        let ended := match awningDir s.u with
          | .inward => s.m.awningStowed = true
          | .outward => awningEnd s.ctx s.u ≤ s.m.counterAw.count
        exec .awningDwellEnd s = .next (unitEvent s s.m endAwningDwell) ∧ awningDwellEnd v = none
        ∧ (admitted s.u .awning = true → awningStep v = some .drive
          ∧ (ended → v.image.awningMotor = { dir := .none, duty := 0 })
          ∧ (¬ ended → v.image.awningMotor = { dir := motorDir (awningDir s.u), duty := 20 }
            ∧ v.awning.ramp = s.m.now))
        ∧ (admitted s.u .awning = false → awningStep v = some .dwell ∧ v.image = s.u.image))
    ∧ (∀ (g : Group) (d : CoachTime), groupHold s.u g = .deadline d → reached d s.m.now = true →
        exec (.holdDeadlineExpiry g) s = .next (unitEvent s s.m fun x u => stopMotion x g .released u)
        ∧ stopLeaves s.ctx g .released s.u (stopMotion s.ctx g .released s.u)
        ∧ (engaging s.u g → stopMotion s.ctx g .released s.u = s.u))
    ∧ (∀ (mo : JackMotion) (d : CoachTime), s.u.jacks.motion = some mo → mo.deadline = some d →
        reached d s.m.now = true →
        let reseek : JackMotion := { mo with
          step := .reseek, deadline := some (s.m.now + BitVec.ofNat 32 (s.ctx.jackField 3 * 1000)), resume := none
          liftAxis := none, lifted := [], threshold := 0 }
        let seeks := fun v : Units => v.jacks.motion = some reseek ∧ v.jacks.state = .levelling
          ∧ ∀ j : Fin 6, v.image.jackValve[j]
            = if s.ctx.jackPresent j = true ∧ s.ctx.contact j = false then .down else .off
        (mo.step = .lift → exec .liftDeadline s = .next (unitEvent s s.m endLift) ∧ seeks (endLift s.ctx s.u))
        ∧ (mo.step = .settle →
          let v := endSettle s.ctx s.u
          let pitch := rowError s.m.tiltX
          let roll := rowError s.m.tiltY
          let level := pitch ≤ s.ctx.tolerance ∧ roll ≤ s.ctx.tolerance
          let axis := if pitch < roll then TiltAxis.y else .x
          let average := rowAverage (if pitch < roll then s.m.tiltY else s.m.tiltX)
          let six := s.ctx.jackField 0 = 6
          let low : List (Fin 6) := match axis with
            | .x => if 0 < average then [2, 3] else [0, 1]
            | .y => if 0 < average then (if six then [0, 2, 4] else [0, 2]) else if six then [1, 3, 5] else [1, 3]
          let stuck := ∃ j ∈ low, s.ctx.maxStroke ≤ (s.m.counterJ[j]).count
          exec .settleEnd s = .next (unitEvent s s.m endSettle)
          ∧ (s.ctx.allContact = false → seeks v)
          ∧ (s.ctx.allContact = true → level →
            motionEnded s.ctx .jacks .completed s.u v ∧ v.jacks.state = .levelled)
          ∧ (s.ctx.allContact = true → ¬ level → 12 ≤ mo.passes + 1 →
            motionEnded s.ctx .jacks .unreachable s.u v ∧ v.jacks.state = .grounded)
          ∧ (s.ctx.allContact = true → ¬ level → mo.passes + 1 < 12 →
            v.jacks.state = .levelling
            ∧ v.jacks.motion = some { mo with
                step := .lift, deadline := some (s.m.now + 5000#32), resume := none, passes := mo.passes + 1
                liftAxis := some axis, lifted := low, threshold := average.natAbs / 2 }
            ∧ (¬ stuck → ∀ j : Fin 6, v.image.jackValve[j] = if j ∈ low then .down else .off)
            ∧ (stuck → v.image = s.u.image
              ∧ (noRequestWaits s.c → s.m.roadSpeed < 2 → onlyMoves .jacks s.u →
                ∃ t, exec .settleEnd s = .next t ∧ t.u.jacks.motion = none ∧ t.u.jacks.state = .grounded
                  ∧ outputsOff .jacks t.u ∧ drawsNothing .jacks s.u t.u)))))
    ∧ (s.u.manifold.state = .switching → ∀ d, s.u.manifold.switchingEnd = some d → reached d s.m.now = true →
        let w := endSwitching s.ctx s.u
        let ended : Units := { s.u with manifold := { s.u.manifold with switchingEnd := none } }
        exec .switchingEnd s = .next (unitEvent s s.m endSwitching)
        ∧ (s.u.manifold.user.isSome → w = askPump s.ctx ended)
        ∧ (s.u.manifold.user = none → s.u.manifold.queue = [] →
          w = { ended with manifold := { ended.manifold with state := .idle } })
        ∧ (s.u.manifold.user = none → ∀ q rest, s.u.manifold.queue = q :: rest →
          w.manifold.user = some q.user ∧ w.manifold.queue = rest
          ∧ (s.u.image.diverter ≠ userCircuit q.user → w.image.diverter = userCircuit q.user
            ∧ w.manifold.state = .switching ∧ w.manifold.switchingEnd = some (s.m.now + 300#32))
          ∧ (s.u.image.diverter = userCircuit q.user → w.manifold.switchingEnd = none
            ∧ ((w.manifold.state = .running ∧ w.image.pump = true ∧ ∃ a ∈ w.admissions, a.consumer = .pump)
              ∨ (w.manifold.state = .awaitBudget ∧ w.image.pump = s.u.image.pump
                ∧ ∃ b ∈ w.budgetQueue, b.consumer = .pump)))))

/-- The heat count rises by one for each 100 ms of running and falls by one for each 300 ms of rest, not below 0, and
the heat interval moves on. At 1800 the manifold enters COOLING: PUMP goes OFF and is given up, and the turn's user is
PAUSED at the head of the queue with the interrupted mark, the jacks' valves closed. In COOLING at 900 the next turn
begins, in the event of the count: the head of the queue leaves it and is the user, with the diverter moved in 300 ms
or, where it stands right, PUMP asked for; with no head the manifold is IDLE: HEAT_RISE, HEAT_FALL (R63, R64, R69 to
R71; the order within the cooling event is the model's choice, log 54). -/
def Obligations.HeatRisesAndFallsByTheInterval : Prop :=
  ∀ s : State,
    let start := s.u.manifold.heatStart
    let moved := fun ms : BitVec 32 => { s.u with manifold := { s.u.manifold with heatStart := start + ms } }
    let answers := fun (i : Instr) (heat : Nat) (w : Units) =>
      exec i s = .next (unitEvent s { s.m with heat := heat } fun _ _ => w)
    (s.u.image.pump = true → elapsed start s.m.now 100 = true →
      (s.m.heat < 1799 →
        exec .heatRise s = .next { s with m := { s.m with heat := s.m.heat + 1 }, u := moved 100#32 })
      ∧ (1799 ≤ s.m.heat → s.u.manifold.user = none → answers .heatRise 1800 (moved 100#32))
      ∧ (1799 ≤ s.m.heat → ∀ k, s.u.manifold.user = some k → ∃ w, answers .heatRise 1800 w
          ∧ w.image.pump = false ∧ (∀ a ∈ w.admissions, a.consumer ≠ .pump) ∧ (∀ b ∈ w.budgetQueue, b.consumer ≠ .pump)
          ∧ w.manifold = { state := .cooling, user := none, queue := { user := k, interrupted := true } :: s.u.manifold.queue
                           switchingEnd := s.u.manifold.switchingEnd, heatStart := s.m.now }
          ∧ (∀ n mo, k = .room n → s.u.rooms[n].motion = some mo → w.rooms[n].state = .paused
            ∧ ∃ mo', w.rooms[n].motion = some mo' ∧ mo'.step = .pause ∧ mo'.lostTurn = true
              ∧ mo'.requester = mo.requester ∧ mo'.dir = mo.dir ∧ mo'.hold = mo.hold)
          ∧ (∀ mo, k = .jacks → s.u.jacks.motion = some mo → w.jacks.state = .paused
            ∧ (∀ j : Fin 6, w.image.jackValve[j] = .off)
            ∧ w.jacks.motion = some { mo with
                step := .pause, resume := some mo.step, deadline := none, liftAxis := none, lifted := [], threshold := 0 })))
    ∧ (s.u.image.pump = false → elapsed start s.m.now 300 = true →
      (s.u.manifold.state ≠ .cooling ∨ 901 < s.m.heat →
        exec .heatFall s = .next { s with m := { s.m with heat := s.m.heat - 1 }, u := moved 300#32 })
      ∧ (s.u.manifold.state = .cooling → s.m.heat ≤ 901 →
        (s.u.manifold.queue = [] → answers .heatFall (s.m.heat - 1)
          { moved 300#32 with manifold := { (moved 300#32).manifold with state := .idle, user := none } })
        ∧ ∀ q rest, s.u.manifold.queue = q :: rest → ∃ w, answers .heatFall (s.m.heat - 1) w
          ∧ w.manifold.user = some q.user ∧ w.manifold.queue = rest
          ∧ (s.u.image.diverter ≠ userCircuit q.user → w.image.diverter = userCircuit q.user
            ∧ w.manifold.state = .switching ∧ w.manifold.switchingEnd = some (s.m.now + 300#32))
          ∧ (s.u.image.diverter = userCircuit q.user →
            (w.manifold.state = .running ∧ w.image.pump = true ∧ ∃ a ∈ w.admissions, a.consumer = .pump)
            ∨ (w.manifold.state = .awaitBudget ∧ w.image.pump = false ∧ ∃ b ∈ w.budgetQueue, b.consumer = .pump))))

/-! ## Faults (Chapter 10) -/

/-- A raise writes its record: the code listed, once, a persistent one with its present mark; the stamps, the count held
at 255 and the detail; the state ACTIVE and the confirmation PENDING; no other record changes, and CHAIN_EN falls for
COACH and stays for a group; FAULT_RAISED is offered to every LINKED link where the record was not ACTIVE or the code is
new to it, and the clears held for the subject are gone (R173, R182). A raise on COACH halts the coach: the image is all
off but for DIVERTER, every motion and internal retract has ended, each motion's requester offered
MOTION_DONE(ABORTED_FAULT), the admission list, both queues and the overload measurement are empty, the manifold is
IDLE, claims without a motion stand, and each present group not in FAULT has its settled state (R175, R176). A raise on
a present group ends its motion ABORTED_FAULT, writes its outputs off, takes its consumers out of both budget
collections and the group out of the manifold, and leaves it in FAULT (R177, R153). -/
def Obligations.RaisesWriteTheirRecord : Prop :=
  ∀ (x : Ctx) (k : Subject) (code : FaultCode) (detail : Detail) (u : Units),
    let r := faultOf u k
    let v := raise x k code detail u
    let r' := faultOf v k
    let offered := fun (l : Link) (b : NoticeBody) => ∃ n ∈ (v.out[linkIdx l]).notices, n.stamp = x.now ∧ n.body = b
    let room := fun l : Link => x.linked l = true ∧ (u.out[linkIdx l]).notices.length ≤ 6
    (r'.state = .active ∧ r'.confirmed = false ∧ r'.lastStamp = some x.now ∧ r'.detail = detail
      ∧ r'.count = min 255 (r.count + 1)
      ∧ r'.firstStamp = (if r.state = .empty then some x.now else r.firstStamp)
      ∧ ((∀ b, (code, b) ∉ r.codes) → r'.codes = r.codes ++ [(code, persistent code)])
      ∧ ((∃ b, (code, b) ∈ r.codes) → r'.codes.map Prod.fst = r.codes.map Prod.fst)
      ∧ marked r' code = persistent code
      ∧ (∀ k', k' ≠ k → faultOf v k' = faultOf u k')
      ∧ (k = .coach → v.chainEn = false)
      ∧ (k ≠ .coach → v.chainEn = u.chainEn)
      ∧ (r.state ≠ .active ∨ (∀ b, (code, b) ∉ r.codes) → ∀ l, room l →
          offered l (.faultRaised k code detail (min 255 (r.count + 1)) .active))
      ∧ v.heldClears = u.heldClears.filter fun h => h.subject != k && code != .chainEcho)
    ∧ (k = .coach →
        v.image = { diverter := u.image.diverter }
        ∧ (∀ g, motionRequester v g = none) ∧ v.awning.retract = none
        ∧ (∀ g l, motionRequester u g = some (.link l) → room l →
            offered l (.motionDone g .abortedFault (x.position g)))
        ∧ v.admissions = [] ∧ v.budgetQueue = [] ∧ v.overload = none
        ∧ v.manifold.state = .idle ∧ v.manifold.user = none ∧ v.manifold.queue = []
        ∧ (∀ g, motionRequester u g = none → claimOf v g = claimOf u g)
        ∧ (∀ n, x.roomPresent n = true →
            v.rooms[n].state = if u.rooms[n].state = .fault ∧ u.rooms[n].motion = none then .fault else x.roomSettled n)
        ∧ (x.c.phase = .run → v.jacks.state
            = if u.jacks.state = .fault ∧ u.jacks.motion = none then .fault else x.jacksSettled)
        ∧ (x.awningPresent = true → v.awning.state
            = if u.awning.state = .fault ∧ u.awning.motion = none ∧ u.awning.retract = none then .fault
              else x.awningSettled))
    ∧ ∀ g, k = .group g →
        (match g with
          | .room n => v.rooms[n].state = .fault | .jacks => v.jacks.state = .fault | .awning => v.awning.state = .fault)
        ∧ motionRequester v g = none ∧ (g = .awning → v.awning.retract = none)
        ∧ (∀ ch, channelOwner ch = some g → channelOff (channelValue v.image ch) = true)
        ∧ (∀ l, motionRequester u g = some (.link l) → room l → u.budgetQueue = [] → u.manifold.queue = [] →
            offered l (.motionDone g .abortedFault (x.position g)))
        ∧ (∀ n, g = .room n → (∀ a ∈ v.admissions, a.consumer ≠ .drive n ∧ a.consumer ≠ .pin n)
            ∧ ∀ b ∈ v.budgetQueue, b.consumer ≠ .drive n ∧ b.consumer ≠ .pin n)
        ∧ (g = .awning → (∀ a ∈ v.admissions, a.consumer ≠ .awning) ∧ ∀ b ∈ v.budgetQueue, b.consumer ≠ .awning)
        ∧ ∀ who, groupUser g = some who → (u.manifold.user = some who →
              u.manifold.state ≠ .idle ∧ u.manifold.state ≠ .cooling ∧ ∀ w ∈ u.manifold.queue, w.user ≠ who) →
            v.manifold.user ≠ some who ∧ ∀ w ∈ v.manifold.queue, w.user ≠ who

/-- FAULT_GET returns the record of its subject, or all nine in the table order, each with every field of R171, in
either phase and changes nothing; a subject byte that names nothing is refused BAD_REQUEST (R180). FAULT_CLEAR is
refused NOT_CONFIGURED in CONFIG; in RUN the first of these decides it: a subject that names nothing is BAD_REQUEST, an
absent group with an EMPTY record ABSENT, a present group of another holder HELD_BY, an EMPTY record NOT_FAULTED, an
ACTIVE one STILL_ACTIVE, and a CLEARABLE one is held with its link and TAG and no answer yet; a refused one changes
nothing (R181). The record's byte values that the spec leaves open (log 8), and the place in that order at which an
unknown subject is refused in CONFIG (log 31), are the model's choice. -/
def Obligations.FaultGetReturnsTheRecords : Prop :=
  (∀ (m : Measured) (l : Link) (tag : Byte) (d : Desk),
    (∀ k : Subject, decideRequest m l tag (.faultGet (some k)) d = (d, some (.ok, faultRecordBytes (faultOf d.u k))))
    ∧ decideRequest m l tag (.faultGet none) d = (d, some (.ok,
        ([.group (.room 0), .group (.room 1), .group (.room 2), .group (.room 3), .group (.room 4), .group (.room 5),
          .group .jacks, .group .awning, .coach] : List Subject).flatMap fun k => faultRecordBytes (faultOf d.u k)))
    ∧ (∀ r : FaultRecord, faultRecordBytes r = [byte r.state.ctorIdx, byte r.codes.length]
        ++ r.codes.flatMap (fun e => [byte e.1.ctorIdx, if persistent e.1 then (if e.2 then 0 else 1) else 255])
        ++ optionalStamp r.firstStamp ++ optionalStamp r.lastStamp ++ [byte r.count] ++ detailBytes r.detail
        ++ [if r.confirmed then 1 else 0])
    ∧ (∀ b : Byte, 9 < b.toNat → readRequest 25#8 [b] = .malformed 25#8)
    ∧ decideRequest m l tag (.malformed 25#8) d = (d, some (.badRequest, [])))
  ∧ ∀ (m : Measured) (l : Link) (tag : Byte) (k : Subject) (d : Desk),
    let x := d.ctx m
    let r := decideRequest m l tag (.faultClear k) d
    let blocked := ∃ g c, k = .group g ∧ x.present g = true ∧ claimOf d.u g = some c ∧ c.holder ≠ .link l
    (d.c.phase = .config → r = (d, some (.notConfigured, []))
      ∧ decideRequest m l tag (.unnamed 26#8) d = (d, some (.notConfigured, [])))
    ∧ (∀ b : Byte, 9 ≤ b.toNat → readRequest 26#8 [b] = .unnamed 26#8)
    ∧ (d.c.phase = .run → decideRequest m l tag (.unnamed 26#8) d = (d, some (.badRequest, [])))
    ∧ (∀ bs : List Byte, bs.length ≠ 1 → readRequest 26#8 bs = .malformed 26#8)
    ∧ decideRequest m l tag (.malformed 26#8) d = (d, some (.badRequest, []))
    ∧ (d.c.phase = .run →
        (∀ g, k = .group g → x.present g = false → (faultOf d.u k).state = .empty →
          r = (d, some (.absent, [subjectByte k])))
        ∧ (∀ g c, k = .group g → x.present g = true → claimOf d.u g = some c → c.holder ≠ .link l →
            r = (d, some (.heldBy, groupByte g :: requesterByte c.holder :: byte c.kind.ctorIdx :: stampBytes c.stamp)))
        ∧ (¬ blocked → (k = .coach ∨ ∃ g, k = .group g ∧ x.present g = true) → (faultOf d.u k).state = .empty →
            r = (d, some (.notFaulted, [])))
        ∧ (¬ blocked → (faultOf d.u k).state = .active → r = (d, some (.stillActive, [])))
        ∧ (¬ blocked → (faultOf d.u k).state = .clearable →
            r = ({ d with u := { d.u with heldClears := d.u.heldClears ++ [{ link := l, tag := tag, subject := k }] } },
              none)))

/-! ## Internal retracts and least attention (Chapters 8 and 11) -/

/-- An internal retract starts at the end of an event that leaves the awning present, in none of STOWED, FAULT,
WIND_RETRACT and IGN_RETRACT, the wind hold in force or the ignition mark set, and the retract permit true: the owner's
motion has ended, and the retract's step, dwell and motor follow from where the awning stood; RETRACT_STARTED is offered
with its cause. In IGN_RETRACT a wind hold makes it a WIND_RETRACT (R151). A second boundary that leaves the hold SET
finds an idle awning that is OUT retracting (R149, R151). A stowed switch that becomes made ends a retract, here with no
motion of a requester: the awning is STOWED, its motor off, AWNING given up, its counter homed and the ignition mark
clear (R150, R152). LEAST_ATTENTION chooses the LINKED link with attention enabled of the lowest level, then of the
lowest number, and with none every LINKED link; the notices of a retract go to the AWNING holder if it is a link (R152,
R193). -/
def Obligations.InternalRetractsFollowWindAndIgnition : Prop :=
  (∀ (x : Ctx) (u : Units),
    let v := judgeRetract x u
    let starts := x.awningPresent = true ∧ u.awning.state ≠ .stowed ∧ u.awning.state ≠ .fault
      ∧ u.awning.state ≠ .windRetract ∧ u.awning.state ≠ .ignRetract
      ∧ (x.m.wind.hold = true ∨ u.awning.ignitionMark = true) ∧ x.c.phase = .run ∧ (faultOf u .coach).state ≠ .active
    let passes := u.awning.state = .ignRetract ∧ x.m.wind.hold = true
    let cause := if x.m.wind.hold = true then RetractCause.wind else .ignition
    let off : Motor := { u.image.awningMotor with duty := 0 }
    let begun := fun (st : AwningStep) (dwell : Option CoachTime) =>
      v.awning.retract = some { cause := cause, step := st, dwellEnd := dwell }
    (¬ starts → ¬ passes → v = u)
    ∧ (passes → v = offerHolder x .awning (.windNotice .retractStarted (some .wind))
        { u with awning := { u.awning with
          state := .windRetract, retract := u.awning.retract.map fun r => { r with cause := .wind } } })
    ∧ (starts → v.awning.motion = none
        ∧ v.awning.state = (if x.m.wind.hold = true then .windRetract else .ignRetract)
        ∧ (∀ mo, u.awning.motion = some mo →
            (mo.step = .drive → mo.dir = .outward →
              begun .dwell (some (x.now + 500#32)) ∧ v.image.awningMotor = off)
            ∧ (mo.step = .drive → mo.dir = .inward → begun .drive none ∧ v.image = u.image)
            ∧ (mo.step = .dwell → begun .dwell mo.dwellEnd ∧ v.image.awningMotor = off)
            ∧ (mo.step ≠ .admitWait → v.admissions = u.admissions ∧ v.budgetQueue = u.budgetQueue)
            ∧ (∀ l, mo.requester = .link l → x.linked l = true → (u.out[linkIdx l]).notices.length < 16 →
              ∃ n ∈ (v.out[linkIdx l]).notices, n.body = .motionDone .awning .abortedWind (x.position .awning)))
        ∧ (∀ c l, claimOf u .awning = some c → c.holder = .link l → c.kind = .explicit → c.mark = false →
            x.linked l = true → (u.out[linkIdx l]).notices.length < 15 →
            ∃ n ∈ (v.out[linkIdx l]).notices, n.body = .windNotice .retractStarted (some cause))
        ∧ (u.awning.motion = none → claimOf u .awning = none →
            v.out = (offerLeast x (.windNotice .retractStarted (some cause)) u).out)
        ∧ ((∀ mo ∈ u.awning.motion, mo.step = .admitWait) → x.m.awningStowed = false →
            (if admitted v .awning = true then
              begun .drive none ∧ v.image.awningMotor = { dir := .inward, duty := 20 } ∧ v.awning.ramp = x.now
            else begun .admitWait none ∧ queued v .awning = true ∧ v.image = u.image))))
  ∧ (∀ s : State, noRequestWaits s.c → elapsed s.m.wind.secondStart s.m.now 1000 = true →
      s.u.awning.motion = none → s.u.awning.retract = none → s.u.awning.state = .out →
      s.ctx.awningPresent = true → s.m.awningStowed = false →
      ∃ t, exec .windSecondBoundary s = .next t
        ∧ (t.m.wind.hold = true → (faultOf t.u .coach).state ≠ .active →
          t.u.awning.state = .windRetract ∧ ∃ r, t.u.awning.retract = some r ∧ r.cause = .wind))
  ∧ (∀ s : State, noRequestWaits s.c → s.m.awningStowed = false → s.u.awning.retract.isSome →
      (∀ g, motionRequester s.u g = none) →
      ∃ t, exec (.awningStowedSwitchChange true) s = .next t ∧ t.u.awning.state = .stowed ∧ t.u.awning.retract = none
        ∧ t.u.image.awningMotor = { dir := .none, duty := 0 }
        ∧ admitted t.u .awning = false ∧ queued t.u .awning = false
        ∧ t.m.counterAw = { s.m.counterAw with count := 0, valid := true }
        ∧ (s.ctx.awningPresent = true → t.u.awning.ignitionMark = false))
  ∧ ∀ (x : Ctx) (b : NoticeBody) (u : Units),
      let open' := fun l => x.linked l = true ∧ (x.port l).attention = true
      ((∀ l, ¬ open' l) → offerLeast x b u = offerAll x b u)
      ∧ (∀ l, open' l → (∀ k, open' k → (x.port l).level < (x.port k).level
            ∨ ((x.port l).level = (x.port k).level ∧ linkIdx l ≤ linkIdx k)) → offerLeast x b u = offerTo x l b u)
      ∧ ∀ g, (∀ l, holderOf u g = some (.link l) → offerHolder x g b u = offerTo x l b u)
        ∧ ((∀ l, holderOf u g ≠ some (.link l)) → offerHolder x g b u = offerLeast x b u)
end

