-- ==== Sys2Proof/Laws/Calm.lean ====
section
/-! SUPPORT. What the sequencers, the budget, the manifold, the claim unit and the requests never do: `Calm w v`
    says that
v has w's CHAIN_EN, fault records, held clears, frame in flight, drive stamps and generation, and that notice queues
within their bound stay within it. One lemma for every operation on the units that raises and clears no fault; each is
proved from its definition by the lemmas of what it calls. -/
set_option linter.unusedTactic false
set_option linter.unreachableTactic false
set_option linter.unnecessarySeqFocus false
set_option linter.unusedSimpArgs false
namespace Sys2Proof.Laws
open Sys2Proof.Machine

/-- Every notice queue holds at most sixteen notices (R192). -/
def noticesBounded (u : Units) : Prop := ∀ l : Link, (u.out[linkIdx l]).notices.length ≤ Config.noticeMax

/-- Nothing but sequencers, budget, manifold, claims, image and ports moved from w to v. -/
structure Calm (w v : Units) : Prop where
  chainEn : v.chainEn = w.chainEn
  faults : v.faults = w.faults
  heldClears : v.heldClears = w.heldClears
  flight : v.flight = w.flight
  changePending : v.changePending = w.changePending
  frameStart : v.frameStart = w.frameStart
  driveOn : v.driveOn = w.driveOn
  generation : v.generation = w.generation
  notices : noticesBounded w → noticesBounded v

@[simp] theorem Calm.refl (u : Units) : Calm u u := ⟨rfl, rfl, rfl, rfl, rfl, rfl, rfl, rfl, id⟩

theorem Calm.trans {a b c : Units} (h : Calm a b) (k : Calm b c) : Calm a c :=
  ⟨k.1.trans h.1, k.2.trans h.2, k.3.trans h.3, k.4.trans h.4, k.5.trans h.5, k.6.trans h.6, k.7.trans h.7,
    k.8.trans h.8, fun n => k.9 (h.9 n)⟩

@[simp] theorem Calm.foldl {α : Type} {w : Units} (f : Units → α → Units) (hf : ∀ u a, Calm u (f u a)) :
    ∀ (l : List α) {u : Units}, Calm w u → Calm w (l.foldl f u)
  | [], _, h => h
  | a :: l, _, h => Calm.foldl f hf l (h.trans (hf _ a))

theorem linkIdx_inj {k l : Link} (h : linkIdx k = linkIdx l) : k = l := by
  cases k <;> cases l <;> first | rfl | simp [linkIdx] at h

theorem offerPort_bounded (n : Notice) (p : PortOut) (h : p.notices.length ≤ Config.noticeMax) :
    (offerPort n p).notices.length ≤ Config.noticeMax := by
  unfold offerPort
  split
  · exact h
  split
  · next h => simpa using h
  · exact h

theorem updOut_bounded {u : Units} {l : Link} {f : PortOut → PortOut} (h : noticesBounded u)
    (hf : (u.out[linkIdx l]).notices.length ≤ Config.noticeMax → (f u.out[linkIdx l]).notices.length ≤
        Config.noticeMax) :
    noticesBounded (updOut u l f) := by
  intro k
  by_cases hk : linkIdx l = linkIdx k
  · have := hf (h l); simp only [updOut]; simp [hk] at this ⊢; simpa [← hk] using this
  · have := h k
    simp only [updOut]
    have hk' : (linkIdx l).val ≠ (linkIdx k).val := fun e => hk (Fin.ext e)
    simpa [Vector.getElem_set, hk'] using this

theorem updOut_calm {w u : Units} {l : Link} {f : PortOut → PortOut} (h : Calm w u)
    (hf : ∀ p : PortOut, p.notices.length ≤ Config.noticeMax → (f p).notices.length ≤ Config.noticeMax) :
    Calm w (updOut u l f) :=
  ⟨h.1, h.2, h.3, h.4, h.5, h.6, h.7, h.8, fun n => updOut_bounded (h.9 n) (hf _)⟩

@[simp] theorem calm_waitList {w u : Units} (l : List WaitEntry) (h : Calm w u) : Calm w { u with waitList := l }
    := ⟨h.1, h.2, h.3, h.4, h.5, h.6, h.7, h.8, h.9⟩
@[simp] theorem calm_budgetQueue {w u : Units} (l : List BudgetWait) (h : Calm w u) : Calm w { u with budgetQueue
    := l } := ⟨h.1, h.2, h.3, h.4, h.5, h.6, h.7, h.8, h.9⟩
@[simp] theorem calm_admissions {w u : Units} (l : List Admission) (h : Calm w u) : Calm w { u with admissions := l
    } := ⟨h.1, h.2, h.3, h.4, h.5, h.6, h.7, h.8, h.9⟩
@[simp] theorem calm_overload {w u : Units} (t : Option CoachTime) (h : Calm w u) : Calm w { u with overload := t }
    := ⟨h.1, h.2, h.3, h.4, h.5, h.6, h.7, h.8, h.9⟩
@[simp] theorem calm_pendingMarks {w u : Units} (v : Vector Bool 24) (h : Calm w u) : Calm w { u with pendingMarks
    := v } := ⟨h.1, h.2, h.3, h.4, h.5, h.6, h.7, h.8, h.9⟩
@[simp] theorem calm_ite {w a b : Units} {c : Prop} [Decidable c] (ha : Calm w a) (hb : Calm w b) :
    Calm w (if c then a else b) := by split <;> assumption

/-! ## Notices -/

@[simp] theorem offerTo_calm {w u : Units} (x : Ctx) (l : Link) (b : NoticeBody) (h : Calm w u) :
    Calm w (offerTo x l b u) := by
  unfold offerTo
  split
  · exact updOut_calm h (offerPort_bounded _)
  · exact h

@[simp] theorem offerAll_calm {w₀ u : Units} (x : Ctx) (b : NoticeBody) (hw : Calm w₀ u) :
    Calm w₀ (offerAll x b u) := by
  unfold offerAll
  (try dsimp only)
  (repeat' split) <;> first | exact hw | (simp (maxDischargeDepth := 40) [hw]; done) | exact ⟨hw.1, hw.2, hw.3,
      hw.4, hw.5, hw.6, hw.7, hw.8, hw.9⟩

@[simp] theorem offerLeast_calm {w₀ u : Units} (x : Ctx) (b : NoticeBody) (hw : Calm w₀ u) :
    Calm w₀ (offerLeast x b u) := by
  unfold offerLeast
  (try dsimp only)
  (repeat' split) <;> first | exact hw | (simp (maxDischargeDepth := 40) [hw]; done) | exact ⟨hw.1, hw.2, hw.3,
      hw.4, hw.5, hw.6, hw.7, hw.8, hw.9⟩

@[simp] theorem offerRoute_calm {w₀ u : Units} (x : Ctx) (r : Route) (b : NoticeBody) (hw : Calm w₀ u) :
    Calm w₀ (offerRoute x r b u) := by
  unfold offerRoute
  (try dsimp only)
  (repeat' split) <;> first | exact hw | (simp (maxDischargeDepth := 40) [hw]; done) | exact ⟨hw.1, hw.2, hw.3,
      hw.4, hw.5, hw.6, hw.7, hw.8, hw.9⟩

@[simp] theorem offerMotion_calm {w₀ u : Units} (x : Ctx) (q : Requester) (r : Route) (b : NoticeBody) (hw : Calm
    w₀ u) :
    Calm w₀ (offerMotion x q r b u) := by
  unfold offerMotion
  (try dsimp only)
  (repeat' split) <;> first | exact hw | (simp (maxDischargeDepth := 40) [hw]; done) | exact ⟨hw.1, hw.2, hw.3,
      hw.4, hw.5, hw.6, hw.7, hw.8, hw.9⟩

@[simp] theorem offerHolder_calm {w₀ u : Units} (x : Ctx) (g : Group) (b : NoticeBody) (hw : Calm w₀ u) :
    Calm w₀ (offerHolder x g b u) := by
  unfold offerHolder
  (try dsimp only)
  (repeat' split) <;> first | exact hw | (simp (maxDischargeDepth := 40) [hw]; done) | exact ⟨hw.1, hw.2, hw.3,
      hw.4, hw.5, hw.6, hw.7, hw.8, hw.9⟩

@[simp] theorem respond_calm {w u : Units} (l : Link) (kind tag : Byte) (s : Status) (data : List Byte)
    (h : Calm w u) : Calm w (respond l kind tag s data u) :=
  updOut_calm h fun _ k => k

@[simp] theorem respondHeld_calm {w₀ u : Units} (x : Ctx) (h : HeldClear) (s : Status) (hw : Calm w₀ u) :
    Calm w₀ (respondHeld x h s u) := by
  unfold respondHeld
  (try dsimp only)
  (repeat' split) <;> first | exact hw | (simp (maxDischargeDepth := 40) [hw]; done) | exact ⟨hw.1, hw.2, hw.3,
      hw.4, hw.5, hw.6, hw.7, hw.8, hw.9⟩

/-! ## Ops -/

@[simp] theorem updImage_calm {w₀ u : Units} (f : Image → Image) (hw : Calm w₀ u) :
    Calm w₀ (updImage u f) := by
  unfold updImage
  (try dsimp only)
  (repeat' split) <;> first | exact hw | (simp (maxDischargeDepth := 40) [hw]; done) | exact ⟨hw.1, hw.2, hw.3,
      hw.4, hw.5, hw.6, hw.7, hw.8, hw.9⟩

@[simp] theorem writeJackValve_calm {w₀ u : Units} (j : Fin 6) (v : JackValve) (hw : Calm w₀ u) :
    Calm w₀ (writeJackValve j v u) := by
  unfold writeJackValve
  (try dsimp only)
  (repeat' split) <;> first | exact hw | (simp (maxDischargeDepth := 40) [hw]; done) | exact ⟨hw.1, hw.2, hw.3,
      hw.4, hw.5, hw.6, hw.7, hw.8, hw.9⟩

@[simp] theorem closeJackValves_calm {w₀ u : Units} (hw : Calm w₀ u) :
    Calm w₀ (closeJackValves u) := by
  unfold closeJackValves
  (try dsimp only)
  (repeat' split) <;> first | exact hw | (simp (maxDischargeDepth := 40) [hw]; done) | exact ⟨hw.1, hw.2, hw.3,
      hw.4, hw.5, hw.6, hw.7, hw.8, hw.9⟩

@[simp] theorem writeRoomValve_calm {w₀ u : Units} (n : Fin 6) (v : RoomValve) (hw : Calm w₀ u) :
    Calm w₀ (writeRoomValve n v u) := by
  unfold writeRoomValve
  (try dsimp only)
  (repeat' split) <;> first | exact hw | (simp (maxDischargeDepth := 40) [hw]; done) | exact ⟨hw.1, hw.2, hw.3,
      hw.4, hw.5, hw.6, hw.7, hw.8, hw.9⟩

@[simp] theorem writeMotor_calm {w₀ u : Units} (n : Fin 6) (e : RoomEnd) (v : Motor) (hw : Calm w₀ u) :
    Calm w₀ (writeMotor n e v u) := by
  unfold writeMotor
  (try dsimp only)
  (repeat' split) <;> first | exact hw | (simp (maxDischargeDepth := 40) [hw]; done) | exact ⟨hw.1, hw.2, hw.3,
      hw.4, hw.5, hw.6, hw.7, hw.8, hw.9⟩

@[simp] theorem writeAwningMotor_calm {w₀ u : Units} (v : Motor) (hw : Calm w₀ u) :
    Calm w₀ (writeAwningMotor v u) := by
  unfold writeAwningMotor
  (try dsimp only)
  (repeat' split) <;> first | exact hw | (simp (maxDischargeDepth := 40) [hw]; done) | exact ⟨hw.1, hw.2, hw.3,
      hw.4, hw.5, hw.6, hw.7, hw.8, hw.9⟩

@[simp] theorem writePin_calm {w₀ u : Units} (n : Fin 6) (on : Bool) (hw : Calm w₀ u) :
    Calm w₀ (writePin n on u) := by
  unfold writePin
  (try dsimp only)
  (repeat' split) <;> first | exact hw | (simp (maxDischargeDepth := 40) [hw]; done) | exact ⟨hw.1, hw.2, hw.3,
      hw.4, hw.5, hw.6, hw.7, hw.8, hw.9⟩

@[simp] theorem updManifold_calm {w₀ u : Units} (f : Manifold → Manifold) (hw : Calm w₀ u) :
    Calm w₀ (updManifold u f) := by
  unfold updManifold
  (try dsimp only)
  (repeat' split) <;> first | exact hw | (simp (maxDischargeDepth := 40) [hw]; done) | exact ⟨hw.1, hw.2, hw.3,
      hw.4, hw.5, hw.6, hw.7, hw.8, hw.9⟩

@[simp] theorem writePump_calm {w₀ u : Units} (x : Ctx) (on : Bool) (hw : Calm w₀ u) :
    Calm w₀ (writePump x on u) := by
  unfold writePump
  (try dsimp only)
  (repeat' split) <;> first | exact hw | (simp (maxDischargeDepth := 40) [hw]; done) | exact ⟨hw.1, hw.2, hw.3,
      hw.4, hw.5, hw.6, hw.7, hw.8, hw.9⟩

@[simp] theorem updRoom_calm {w₀ u : Units} (n : Fin 6) (f : Room → Room) (hw : Calm w₀ u) :
    Calm w₀ (updRoom n f u) := by
  unfold updRoom
  (try dsimp only)
  (repeat' split) <;> first | exact hw | (simp (maxDischargeDepth := 40) [hw]; done) | exact ⟨hw.1, hw.2, hw.3,
      hw.4, hw.5, hw.6, hw.7, hw.8, hw.9⟩

@[simp] theorem updRoomMotion_calm {w₀ u : Units} (n : Fin 6) (f : RoomMotion → RoomMotion) (hw : Calm w₀ u) :
    Calm w₀ (updRoomMotion n f u) := by
  unfold updRoomMotion
  (try dsimp only)
  (repeat' split) <;> first | exact hw | (simp (maxDischargeDepth := 40) [hw]; done) | exact ⟨hw.1, hw.2, hw.3,
      hw.4, hw.5, hw.6, hw.7, hw.8, hw.9⟩

@[simp] theorem setRoomState_calm {w₀ u : Units} (n : Fin 6) (s : RoomState) (hw : Calm w₀ u) :
    Calm w₀ (setRoomState n s u) := by
  unfold setRoomState
  (try dsimp only)
  (repeat' split) <;> first | exact hw | (simp (maxDischargeDepth := 40) [hw]; done) | exact ⟨hw.1, hw.2, hw.3,
      hw.4, hw.5, hw.6, hw.7, hw.8, hw.9⟩

@[simp] theorem updJacks_calm {w₀ u : Units} (f : Jacks → Jacks) (hw : Calm w₀ u) :
    Calm w₀ (updJacks f u) := by
  unfold updJacks
  (try dsimp only)
  (repeat' split) <;> first | exact hw | (simp (maxDischargeDepth := 40) [hw]; done) | exact ⟨hw.1, hw.2, hw.3,
      hw.4, hw.5, hw.6, hw.7, hw.8, hw.9⟩

@[simp] theorem updJackMotion_calm {w₀ u : Units} (f : JackMotion → JackMotion) (hw : Calm w₀ u) :
    Calm w₀ (updJackMotion f u) := by
  unfold updJackMotion
  (try dsimp only)
  (repeat' split) <;> first | exact hw | (simp (maxDischargeDepth := 40) [hw]; done) | exact ⟨hw.1, hw.2, hw.3,
      hw.4, hw.5, hw.6, hw.7, hw.8, hw.9⟩

@[simp] theorem updAwning_calm {w₀ u : Units} (f : Awning → Awning) (hw : Calm w₀ u) :
    Calm w₀ (updAwning f u) := by
  unfold updAwning
  (try dsimp only)
  (repeat' split) <;> first | exact hw | (simp (maxDischargeDepth := 40) [hw]; done) | exact ⟨hw.1, hw.2, hw.3,
      hw.4, hw.5, hw.6, hw.7, hw.8, hw.9⟩

@[simp] theorem admit_calm {w₀ u : Units} (x : Ctx) (k : Consumer) (a : Nat) (hw : Calm w₀ u) :
    Calm w₀ (joinAdmissions x k a u) := by
  unfold joinAdmissions
  (try dsimp only)
  (repeat' split) <;> first | exact hw | (simp (maxDischargeDepth := 40) [hw]; done) | exact ⟨hw.1, hw.2, hw.3,
      hw.4, hw.5, hw.6, hw.7, hw.8, hw.9⟩

@[simp] theorem enqueue_calm {w₀ u : Units} (x : Ctx) (k : Consumer) (a : Nat) (cause : WaitCause) (hw : Calm w₀ u) :
    Calm w₀ (enqueue x k a cause u) := by
  unfold enqueue
  (try dsimp only)
  (repeat' split) <;> first | exact hw | (simp (maxDischargeDepth := 40) [hw]; done) | exact ⟨hw.1, hw.2, hw.3,
      hw.4, hw.5, hw.6, hw.7, hw.8, hw.9⟩

@[simp] theorem budgetAsk_calm {w₀ u : Units} (x : Ctx) (k : Consumer) (hw : Calm w₀ u) :
    Calm w₀ (budgetAsk x k u).1 := by
  unfold budgetAsk
  (try dsimp only)
  (repeat' split) <;> first | exact hw | (simp (maxDischargeDepth := 40) [hw]; done) | exact ⟨hw.1, hw.2, hw.3,
      hw.4, hw.5, hw.6, hw.7, hw.8, hw.9⟩

@[simp] theorem budgetDrop_calm {w₀ u : Units} (ks : List Consumer) (hw : Calm w₀ u) :
    Calm w₀ (budgetDrop ks u).1 := by
  unfold budgetDrop
  (try dsimp only)
  (repeat' split) <;> first | exact hw | (simp (maxDischargeDepth := 40) [hw]; done) | exact ⟨hw.1, hw.2, hw.3,
      hw.4, hw.5, hw.6, hw.7, hw.8, hw.9⟩

@[simp] theorem setClaim_calm {w₀ u : Units} (g : Group) (c : Option Claim) (hw : Calm w₀ u) :
    Calm w₀ (setClaim g c u) := by
  unfold setClaim
  (try dsimp only)
  (repeat' split) <;> first | exact hw | (simp (maxDischargeDepth := 40) [hw]; done) | exact ⟨hw.1, hw.2, hw.3,
      hw.4, hw.5, hw.6, hw.7, hw.8, hw.9⟩

@[simp] theorem clearMark_calm {w₀ u : Units} (g : Group) (hw : Calm w₀ u) :
    Calm w₀ (clearMark g u) := by
  unfold clearMark
  (try dsimp only)
  (repeat' split) <;> first | exact hw | (simp (maxDischargeDepth := 40) [hw]; done) | exact ⟨hw.1, hw.2, hw.3,
      hw.4, hw.5, hw.6, hw.7, hw.8, hw.9⟩

@[simp] theorem claimMotionLeft_calm {w₀ u : Units} (g : Group) (hw : Calm w₀ u) :
    Calm w₀ (claimMotionLeft g u) := by
  unfold claimMotionLeft
  (try dsimp only)
  (repeat' split) <;> first | exact hw | (simp (maxDischargeDepth := 40) [hw]; done) | exact ⟨hw.1, hw.2, hw.3,
      hw.4, hw.5, hw.6, hw.7, hw.8, hw.9⟩

@[simp] theorem grantGroups_calm {w₀ u : Units} (x : Ctx) (l : Link) (gs : List Group) (hw : Calm w₀ u) :
    Calm w₀ (grantGroups x l gs u) := by
  unfold grantGroups
  (try dsimp only)
  (repeat' split) <;> first | exact hw | (simp (maxDischargeDepth := 40) [hw]; done) | exact ⟨hw.1, hw.2, hw.3,
      hw.4, hw.5, hw.6, hw.7, hw.8, hw.9⟩

@[simp] theorem absorbHeld_calm {w₀ u : Units} (x : Ctx) (l : Link) (gs : List Group) (hw : Calm w₀ u) :
    Calm w₀ (absorbHeld x l gs u) := by
  unfold absorbHeld
  (try dsimp only)
  (repeat' split) <;> first | exact hw | (simp (maxDischargeDepth := 40) [hw]; done) | exact ⟨hw.1, hw.2, hw.3,
      hw.4, hw.5, hw.6, hw.7, hw.8, hw.9⟩

@[simp] theorem claimForMotion_calm {w₀ u : Units} (x : Ctx) (q : Requester) (g : Group) (hw : Calm w₀ u) :
    Calm w₀ (claimForMotion x q g u) := by
  unfold claimForMotion
  (try dsimp only)
  (repeat' split) <;> first | exact hw | (simp (maxDischargeDepth := 40) [hw]; done) | exact ⟨hw.1, hw.2, hw.3,
      hw.4, hw.5, hw.6, hw.7, hw.8, hw.9⟩

@[simp] theorem motionDone_calm {w₀ u : Units} (x : Ctx) (g : Group) (q : Requester) (r : Route) (res :
    MotionResult) (hw : Calm w₀ u) :
    Calm w₀ (motionDone x g q r res u) := by
  unfold motionDone
  (try dsimp only)
  (repeat' split) <;> first | exact hw | (simp (maxDischargeDepth := 40) [hw]; done) | exact ⟨hw.1, hw.2, hw.3,
      hw.4, hw.5, hw.6, hw.7, hw.8, hw.9⟩

/-! ## Drive -/

@[simp] theorem clearSync_calm {w₀ u : Units} (n : Fin 6) (hw : Calm w₀ u) :
    Calm w₀ (clearSync n u) := by
  unfold clearSync
  (try dsimp only)
  (repeat' split) <;> first | exact hw | (simp (maxDischargeDepth := 40) [hw]; done) | exact ⟨hw.1, hw.2, hw.3,
      hw.4, hw.5, hw.6, hw.7, hw.8, hw.9⟩

@[simp] theorem stopDrive_calm {w₀ u : Units} (n : Fin 6) (hw : Calm w₀ u) :
    Calm w₀ (stopDrive n u) := by
  unfold stopDrive
  (try dsimp only)
  (repeat' split) <;> first | exact hw | (simp (maxDischargeDepth := 40) [hw]; done) | exact ⟨hw.1, hw.2, hw.3,
      hw.4, hw.5, hw.6, hw.7, hw.8, hw.9⟩

@[simp] theorem holdMotor_calm {w₀ u : Units} (n : Fin 6) (e : RoomEnd) (hw : Calm w₀ u) :
    Calm w₀ (holdMotor n e u) := by
  unfold holdMotor
  (try dsimp only)
  (repeat' split) <;> first | exact hw | (simp (maxDischargeDepth := 40) [hw]; done) | exact ⟨hw.1, hw.2, hw.3,
      hw.4, hw.5, hw.6, hw.7, hw.8, hw.9⟩

@[simp] theorem pauseDrive_calm {w₀ u : Units} (n : Fin 6) (hw : Calm w₀ u) :
    Calm w₀ (pauseDrive n u) := by
  unfold pauseDrive
  (try dsimp only)
  (repeat' split) <;> first | exact hw | (simp (maxDischargeDepth := 40) [hw]; done) | exact ⟨hw.1, hw.2, hw.3,
      hw.4, hw.5, hw.6, hw.7, hw.8, hw.9⟩

@[simp] theorem startMotor_calm {w₀ u : Units} (x : Ctx) (n : Fin 6) (e : RoomEnd) (d : MotorDir) (hw : Calm w₀ u) :
    Calm w₀ (startMotor x n e d u) := by
  unfold startMotor
  (try dsimp only)
  (repeat' split) <;> first | exact hw | (simp (maxDischargeDepth := 40) [hw]; done) | exact ⟨hw.1, hw.2, hw.3,
      hw.4, hw.5, hw.6, hw.7, hw.8, hw.9⟩

@[simp] theorem startEnd_calm {w₀ u : Units} (x : Ctx) (n : Fin 6) (m : RoomMotion) (resume : Bool) (e : RoomEnd)
    (hw : Calm w₀ u) :
    Calm w₀ (startEnd x n m resume u e) := by
  unfold startEnd
  (try dsimp only)
  (repeat' split) <;> first | exact hw | (simp (maxDischargeDepth := 40) [hw]; done) | exact ⟨hw.1, hw.2, hw.3,
      hw.4, hw.5, hw.6, hw.7, hw.8, hw.9⟩

@[simp] theorem keepHeld_calm {w₀ u : Units} (n : Fin 6) (hw : Calm w₀ u) : Calm w₀ (keepHeld n u) := by
  unfold keepHeld
  (try dsimp only)
  (repeat' split) <;> first | exact hw | (simp (maxDischargeDepth := 40) [hw]; done) | exact ⟨hw.1, hw.2, hw.3,
      hw.4, hw.5, hw.6, hw.7, hw.8, hw.9⟩

@[simp] theorem startDrive_calm {w₀ u : Units} (x : Ctx) (n : Fin 6) (m : RoomMotion) (hw : Calm w₀
    u) :
    Calm w₀ (startDrive x n m u) := by
  unfold startDrive
  (try dsimp only)
  (repeat' split) <;> first | exact hw | (simp (maxDischargeDepth := 40) [hw]; done) | exact ⟨hw.1, hw.2, hw.3,
      hw.4, hw.5, hw.6, hw.7, hw.8, hw.9⟩

@[simp] theorem roomReady_calm {w₀ u : Units} (x : Ctx) (n : Fin 6) (hw : Calm w₀ u) :
    Calm w₀ (roomReady x n u) := by
  unfold roomReady
  (try dsimp only)
  (repeat' split) <;> first | exact hw | (simp (maxDischargeDepth := 40) [hw]; done) | exact ⟨hw.1, hw.2, hw.3,
      hw.4, hw.5, hw.6, hw.7, hw.8, hw.9⟩

@[simp] theorem offerRoom_calm {w₀ u : Units} (x : Ctx) (n : Fin 6) (b : NoticeBody) (hw : Calm w₀ u) :
    Calm w₀ (offerRoom x n b u) := by
  unfold offerRoom
  (try dsimp only)
  (repeat' split) <;> first | exact hw | (simp (maxDischargeDepth := 40) [hw]; done) | exact ⟨hw.1, hw.2, hw.3,
      hw.4, hw.5, hw.6, hw.7, hw.8, hw.9⟩

@[simp] theorem roomResume_calm {w₀ u : Units} (x : Ctx) (n : Fin 6) (hw : Calm w₀ u) :
    Calm w₀ (roomResume x n u) := by
  unfold roomResume
  (try dsimp only)
  (repeat' split) <;> first | exact hw | (simp (maxDischargeDepth := 40) [hw]; done) | exact ⟨hw.1, hw.2, hw.3,
      hw.4, hw.5, hw.6, hw.7, hw.8, hw.9⟩

@[simp] theorem enterPaused_calm {w₀ u : Units} (x : Ctx) (n : Fin 6) (reason : PauseReason) (told : Bool) (hw : Calm w₀ u) :
    Calm w₀ (enterPaused x n reason told u) := by
  have k := setRoomState_calm n .paused (updRoomMotion_calm n
      (fun m => { m with step := .pause, lostPin := m.lostPin || m.step == .pinWait }) (pauseDrive_calm n hw))
  unfold enterPaused
  exact calm_ite (offerRoom_calm x n _ k) k

@[simp] theorem driveJacks_calm {w₀ u : Units} (v : JackValve) (pick : Fin 6 → Bool) (hw : Calm w₀ u) :
    Calm w₀ (driveJacks v pick u) := by
  unfold driveJacks
  (try dsimp only)
  (repeat' split) <;> first | exact hw | (simp (maxDischargeDepth := 40) [hw]; done) | exact ⟨hw.1, hw.2, hw.3,
      hw.4, hw.5, hw.6, hw.7, hw.8, hw.9⟩

@[simp] theorem setJackStep_calm {w₀ u : Units} (st : JackStep) (s : JackSetState) (d : Option CoachTime) (hw :
    Calm w₀ u) :
    Calm w₀ (setJackStep st s d u) := by
  unfold setJackStep
  (try dsimp only)
  (repeat' split) <;> first | exact hw | (simp (maxDischargeDepth := 40) [hw]; done) | exact ⟨hw.1, hw.2, hw.3,
      hw.4, hw.5, hw.6, hw.7, hw.8, hw.9⟩

@[simp] theorem clearLift_calm {w₀ u : Units} (hw : Calm w₀ u) :
    Calm w₀ (clearLift u) := by
  unfold clearLift
  (try dsimp only)
  (repeat' split) <;> first | exact hw | (simp (maxDischargeDepth := 40) [hw]; done) | exact ⟨hw.1, hw.2, hw.3,
      hw.4, hw.5, hw.6, hw.7, hw.8, hw.9⟩

@[simp] theorem beginSeek_calm {w₀ u : Units} (x : Ctx) (hw : Calm w₀ u) :
    Calm w₀ (beginSeek x u) := by
  unfold beginSeek
  (try dsimp only)
  (repeat' split) <;> first | exact hw | (simp (maxDischargeDepth := 40) [hw]; done) | exact ⟨hw.1, hw.2, hw.3,
      hw.4, hw.5, hw.6, hw.7, hw.8, hw.9⟩

@[simp] theorem beginReseek_calm {w₀ u : Units} (x : Ctx) (hw : Calm w₀ u) :
    Calm w₀ (beginReseek x u) := by
  unfold beginReseek
  (try dsimp only)
  (repeat' split) <;> first | exact hw | (simp (maxDischargeDepth := 40) [hw]; done) | exact ⟨hw.1, hw.2, hw.3,
      hw.4, hw.5, hw.6, hw.7, hw.8, hw.9⟩

@[simp] theorem beginSettle_calm {w₀ u : Units} (x : Ctx) (hw : Calm w₀ u) :
    Calm w₀ (beginSettle x u) := by
  unfold beginSettle
  (try dsimp only)
  (repeat' split) <;> first | exact hw | (simp (maxDischargeDepth := 40) [hw]; done) | exact ⟨hw.1, hw.2, hw.3,
      hw.4, hw.5, hw.6, hw.7, hw.8, hw.9⟩

@[simp] theorem beginJog_calm {w₀ u : Units} (x : Ctx) (m : JackMotion) (hw : Calm w₀ u) :
    Calm w₀ (beginJog x m u) := by
  unfold beginJog
  (try dsimp only)
  (repeat' split) <;> first | exact hw | (simp (maxDischargeDepth := 40) [hw]; done) | exact ⟨hw.1, hw.2, hw.3,
      hw.4, hw.5, hw.6, hw.7, hw.8, hw.9⟩

@[simp] theorem beginRetract_calm {w₀ u : Units} (x : Ctx) (hw : Calm w₀ u) :
    Calm w₀ (beginRetract x u) := by
  unfold beginRetract
  (try dsimp only)
  (repeat' split) <;> first | exact hw | (simp (maxDischargeDepth := 40) [hw]; done) | exact ⟨hw.1, hw.2, hw.3,
      hw.4, hw.5, hw.6, hw.7, hw.8, hw.9⟩

@[simp] theorem offerJacks_calm {w₀ u : Units} (x : Ctx) (b : NoticeBody) (hw : Calm w₀ u) :
    Calm w₀ (offerJacks x b u) := by
  unfold offerJacks
  (try dsimp only)
  (repeat' split) <;> first | exact hw | (simp (maxDischargeDepth := 40) [hw]; done) | exact ⟨hw.1, hw.2, hw.3,
      hw.4, hw.5, hw.6, hw.7, hw.8, hw.9⟩

@[simp] theorem jackTurnOpen_calm {w₀ u : Units} (x : Ctx) (hw : Calm w₀ u) :
    Calm w₀ (jackTurnOpen x u) := by
  unfold jackTurnOpen
  (try dsimp only)
  (repeat' split) <;> first | exact hw | (simp (maxDischargeDepth := 40) [hw]; done) | exact ⟨hw.1, hw.2, hw.3,
      hw.4, hw.5, hw.6, hw.7, hw.8, hw.9⟩

@[simp] theorem jackPause_calm {w₀ u : Units} (x : Ctx) (reason : PauseReason) (hw : Calm w₀ u) :
    Calm w₀ (jackPause x reason u) := by
  unfold jackPause
  (try dsimp only)
  (repeat' split) <;> first | exact hw | (simp (maxDischargeDepth := 40) [hw]; done) | exact ⟨hw.1, hw.2, hw.3,
      hw.4, hw.5, hw.6, hw.7, hw.8, hw.9⟩

@[simp] theorem roomTurnOpen_calm {w₀ u : Units} (x : Ctx) (n : Fin 6) (hw : Calm w₀ u) :
    Calm w₀ (roomTurnOpen x n u) := by
  unfold roomTurnOpen
  (try dsimp only)
  (repeat' split) <;> first | exact hw | (simp (maxDischargeDepth := 40) [hw]; done) | exact ⟨hw.1, hw.2, hw.3,
      hw.4, hw.5, hw.6, hw.7, hw.8, hw.9⟩

@[simp] theorem turnOpen_calm {w₀ u : Units} (x : Ctx) (k : ManifoldUser) (hw : Calm w₀ u) :
    Calm w₀ (turnOpen x k u) := by
  unfold turnOpen
  (try dsimp only)
  (repeat' split) <;> first | exact hw | (simp (maxDischargeDepth := 40) [hw]; done) | exact ⟨hw.1, hw.2, hw.3,
      hw.4, hw.5, hw.6, hw.7, hw.8, hw.9⟩

@[simp] theorem runTurn_calm {w₀ u : Units} (x : Ctx) (hw : Calm w₀ u) :
    Calm w₀ (runTurn x u) := by
  unfold runTurn
  (try dsimp only)
  (repeat' split) <;> first | exact hw | (simp (maxDischargeDepth := 40) [hw]; done) | exact ⟨hw.1, hw.2, hw.3,
      hw.4, hw.5, hw.6, hw.7, hw.8, hw.9⟩

@[simp] theorem askPump_calm {w₀ u : Units} (x : Ctx) (hw : Calm w₀ u) :
    Calm w₀ (askPump x u) := by
  unfold askPump
  (try dsimp only)
  (repeat' split) <;> first | exact hw | (simp (maxDischargeDepth := 40) [hw]; done) | exact ⟨hw.1, hw.2, hw.3,
      hw.4, hw.5, hw.6, hw.7, hw.8, hw.9⟩

@[simp] theorem beginTurn_calm {w₀ u : Units} (x : Ctx) (k : ManifoldUser) (hw : Calm w₀ u) :
    Calm w₀ (beginTurn x k u) := by
  unfold beginTurn
  (try dsimp only)
  (repeat' split) <;> first | exact hw | (simp (maxDischargeDepth := 40) [hw]; done) | exact ⟨hw.1, hw.2, hw.3,
      hw.4, hw.5, hw.6, hw.7, hw.8, hw.9⟩

@[simp] theorem askTurn_calm {w₀ u : Units} (x : Ctx) (k : ManifoldUser) (hw : Calm w₀ u) :
    Calm w₀ (askTurn x k u) := by
  unfold askTurn
  (try dsimp only)
  (repeat' split) <;> first | exact hw | (simp (maxDischargeDepth := 40) [hw]; done) | exact ⟨hw.1, hw.2, hw.3,
      hw.4, hw.5, hw.6, hw.7, hw.8, hw.9⟩

@[simp] theorem nextTurn_calm {w₀ u : Units} (x : Ctx) (hw : Calm w₀ u) :
    Calm w₀ (nextTurn x u) := by
  unfold nextTurn
  (try dsimp only)
  (repeat' split) <;> first | exact hw | (simp (maxDischargeDepth := 40) [hw]; done) | exact ⟨hw.1, hw.2, hw.3,
      hw.4, hw.5, hw.6, hw.7, hw.8, hw.9⟩

@[simp] theorem setAwningStep_calm {w₀ u : Units} (st : AwningStep) (d : Option CoachTime) (hw : Calm w₀ u) :
    Calm w₀ (setAwningStep st d u) := by
  unfold setAwningStep
  (try dsimp only)
  (repeat' split) <;> first | exact hw | (simp (maxDischargeDepth := 40) [hw]; done) | exact ⟨hw.1, hw.2, hw.3,
      hw.4, hw.5, hw.6, hw.7, hw.8, hw.9⟩

@[simp] theorem startAwning_calm {w₀ u : Units} (x : Ctx) (hw : Calm w₀ u) :
    Calm w₀ (startAwning x u) := by
  unfold startAwning
  (try dsimp only)
  (repeat' split) <;> first | exact hw | (simp (maxDischargeDepth := 40) [hw]; done) | exact ⟨hw.1, hw.2, hw.3,
      hw.4, hw.5, hw.6, hw.7, hw.8, hw.9⟩

@[simp] theorem offerAwning_calm {w₀ u : Units} (x : Ctx) (b : NoticeBody) (hw : Calm w₀ u) :
    Calm w₀ (offerAwning x b u) := by
  unfold offerAwning
  (try dsimp only)
  (repeat' split) <;> first | exact hw | (simp (maxDischargeDepth := 40) [hw]; done) | exact ⟨hw.1, hw.2, hw.3,
      hw.4, hw.5, hw.6, hw.7, hw.8, hw.9⟩

@[simp] theorem pinGranted_calm {w₀ u : Units} (x : Ctx) (n : Fin 6) (hw : Calm w₀ u) :
    Calm w₀ (pinGranted x n u) := by
  unfold pinGranted
  (try dsimp only)
  (repeat' split) <;> first | exact hw | (simp (maxDischargeDepth := 40) [hw]; done) | exact ⟨hw.1, hw.2, hw.3,
      hw.4, hw.5, hw.6, hw.7, hw.8, hw.9⟩

@[simp] theorem driveGranted_calm {w₀ u : Units} (x : Ctx) (n : Fin 6) (hw : Calm w₀ u) :
    Calm w₀ (driveGranted x n u) := by
  unfold driveGranted
  (try dsimp only)
  (repeat' split) <;> first | exact hw | (simp (maxDischargeDepth := 40) [hw]; done) | exact ⟨hw.1, hw.2, hw.3,
      hw.4, hw.5, hw.6, hw.7, hw.8, hw.9⟩

@[simp] theorem awningGranted_calm {w₀ u : Units} (x : Ctx) (shed : Bool) (hw : Calm w₀ u) :
    Calm w₀ (awningGranted x shed u) := by
  unfold awningGranted
  (try dsimp only)
  (repeat' split) <;> first | exact hw | (simp (maxDischargeDepth := 40) [hw]; done) | exact ⟨hw.1, hw.2, hw.3,
      hw.4, hw.5, hw.6, hw.7, hw.8, hw.9⟩

@[simp] theorem granted_calm {w₀ u : Units} (x : Ctx) (w : BudgetWait) (hw : Calm w₀ u) :
    Calm w₀ (granted x w u) := by
  unfold granted
  (try dsimp only)
  (repeat' split) <;> first | exact hw | (simp (maxDischargeDepth := 40) [hw]; done) | exact ⟨hw.1, hw.2, hw.3,
      hw.4, hw.5, hw.6, hw.7, hw.8, hw.9⟩

@[simp] theorem admitQueued_calm {w₀ u : Units} (x : Ctx) (w : BudgetWait) (hw : Calm w₀ u) :
    Calm w₀ (admitQueued x w u) := by
  unfold admitQueued
  (try dsimp only)
  (repeat' split) <;> first | exact hw | (simp (maxDischargeDepth := 40) [hw]; done) | exact ⟨hw.1, hw.2, hw.3,
      hw.4, hw.5, hw.6, hw.7, hw.8, hw.9⟩

@[simp] theorem passHeads_calm {w : Units} (x : Ctx) : ∀ (fuel : Nat) {u : Units}, Calm w u → Calm w (passHeads x
    fuel u)
  | 0, _, h => h
  | fuel + 1, u, h => by
    unfold passHeads
    repeat' split
    · exact h
    · exact passHeads_calm x fuel (admitQueued_calm _ _ h)
    · exact h

@[simp] theorem passAwning_calm {w₀ u : Units} (x : Ctx) (hw : Calm w₀ u) :
    Calm w₀ (passAwning x u) := by
  unfold passAwning
  (try dsimp only)
  (repeat' split) <;> first | exact hw | (simp (maxDischargeDepth := 40) [hw]; done) | exact ⟨hw.1, hw.2, hw.3,
      hw.4, hw.5, hw.6, hw.7, hw.8, hw.9⟩

@[simp] theorem admissionPass_calm {w₀ u : Units} (x : Ctx) (hw : Calm w₀ u) :
    Calm w₀ (admissionPass x u) := by
  unfold admissionPass
  (try dsimp only)
  (repeat' split) <;> first | exact hw | (simp (maxDischargeDepth := 40) [hw]; done) | exact ⟨hw.1, hw.2, hw.3,
      hw.4, hw.5, hw.6, hw.7, hw.8, hw.9⟩

@[simp] theorem giveUp_calm {w₀ u : Units} (x : Ctx) (ks : List Consumer) (hw : Calm w₀ u) :
    Calm w₀ (giveUp x ks u) := by
  unfold giveUp
  (try dsimp only)
  (repeat' split) <;> first | exact hw | (simp (maxDischargeDepth := 40) [hw]; done) | exact ⟨hw.1, hw.2, hw.3,
      hw.4, hw.5, hw.6, hw.7, hw.8, hw.9⟩

@[simp] theorem turnEnd_calm {w₀ u : Units} (x : Ctx) (hw : Calm w₀ u) :
    Calm w₀ (turnEnd x u) := by
  unfold turnEnd
  (try dsimp only)
  (repeat' split) <;> first | exact hw | (simp (maxDischargeDepth := 40) [hw]; done) | exact ⟨hw.1, hw.2, hw.3,
      hw.4, hw.5, hw.6, hw.7, hw.8, hw.9⟩

@[simp] theorem leaveManifold_calm {w₀ u : Units} (x : Ctx) (k : ManifoldUser) (hw : Calm w₀ u) :
    Calm w₀ (leaveManifold x k u) := by
  unfold leaveManifold
  (try dsimp only)
  (repeat' split) <;> first | exact hw | (simp (maxDischargeDepth := 40) [hw]; done) | exact ⟨hw.1, hw.2, hw.3,
      hw.4, hw.5, hw.6, hw.7, hw.8, hw.9⟩

@[simp] theorem shedEffect_calm {w₀ u : Units} (x : Ctx) (k : Consumer) (told : Bool) (hw : Calm w₀ u) :
    Calm w₀ (shedEffect x k told u) := by
  unfold shedEffect
  (try dsimp only)
  (repeat' split) <;> first | exact hw | (simp (maxDischargeDepth := 40) [hw]; done) | exact ⟨hw.1, hw.2, hw.3,
      hw.4, hw.5, hw.6, hw.7, hw.8, hw.9⟩

@[simp] theorem shed_calm {w₀ u : Units} (x : Ctx) (a : Admission) (cause : WaitCause) (told : List Group) (hw : Calm w₀ u) :
    Calm w₀ (shed x a cause told u) := by
  unfold shed
  (try dsimp only)
  (repeat' split) <;> first | exact hw | (simp (maxDischargeDepth := 40) [hw]; done) | exact ⟨hw.1, hw.2, hw.3,
      hw.4, hw.5, hw.6, hw.7, hw.8, hw.9⟩

@[simp] theorem shedToBound_calm {w : Units} (x : Ctx) : ∀ (fuel : Nat) (told : List Group) {u : Units}, Calm w u →
    Calm w (shedToBound x fuel told u)
  | 0, _, _, h => h
  | fuel + 1, _, u, h => by
    unfold shedToBound
    repeat' split
    · exact h
    · exact shedToBound_calm x fuel _ (shed_calm _ _ _ _ h)
    · exact h

@[simp] theorem shedToLimit_calm {w₀ u : Units} (x : Ctx) (hw : Calm w₀ u) :
    Calm w₀ (shedToLimit x u) := by
  unfold shedToLimit
  (try dsimp only)
  (repeat' split) <;> first | exact hw | (simp (maxDischargeDepth := 40) [hw]; done) | exact ⟨hw.1, hw.2, hw.3,
      hw.4, hw.5, hw.6, hw.7, hw.8, hw.9⟩

@[simp] theorem applyLimit_calm {w₀ u : Units} (x : Ctx) (hw : Calm w₀ u) :
    Calm w₀ (applyLimit x u) := by
  unfold applyLimit
  (try dsimp only)
  (repeat' split) <;> first | exact hw | (simp (maxDischargeDepth := 40) [hw]; done) | exact ⟨hw.1, hw.2, hw.3,
      hw.4, hw.5, hw.6, hw.7, hw.8, hw.9⟩

@[simp] theorem driveRequest_calm {w₀ u : Units} (x : Ctx) (n : Fin 6) (hw : Calm w₀ u) :
    Calm w₀ (driveRequest x n u) := by
  unfold driveRequest
  (try dsimp only)
  (repeat' split) <;> first | exact hw | (simp (maxDischargeDepth := 40) [hw]; done) | exact ⟨hw.1, hw.2, hw.3,
      hw.4, hw.5, hw.6, hw.7, hw.8, hw.9⟩

@[simp] theorem pinWithdraw_calm {w₀ u : Units} (x : Ctx) (n : Fin 6) (hw : Calm w₀ u) :
    Calm w₀ (pinWithdraw x n u) := by
  unfold pinWithdraw
  (try dsimp only)
  (repeat' split) <;> first | exact hw | (simp (maxDischargeDepth := 40) [hw]; done) | exact ⟨hw.1, hw.2, hw.3,
      hw.4, hw.5, hw.6, hw.7, hw.8, hw.9⟩

@[simp] theorem pinEngage_calm {w₀ u : Units} (x : Ctx) (n : Fin 6) (pending : Option MotionResult) (hw : Calm w₀ u) :
    Calm w₀ (pinEngage x n pending u) := by
  unfold pinEngage
  (try dsimp only)
  (repeat' split) <;> first | exact hw | (simp (maxDischargeDepth := 40) [hw]; done) | exact ⟨hw.1, hw.2, hw.3,
      hw.4, hw.5, hw.6, hw.7, hw.8, hw.9⟩

@[simp] theorem beginSequence_calm {w₀ u : Units} (x : Ctx) (n : Fin 6) (d : Direction) (hw : Calm w₀ u) :
    Calm w₀ (beginSequence x n d u) := by
  unfold beginSequence
  (try dsimp only)
  (repeat' split) <;> first | exact hw | (simp (maxDischargeDepth := 40) [hw]; done) | exact ⟨hw.1, hw.2, hw.3,
      hw.4, hw.5, hw.6, hw.7, hw.8, hw.9⟩

@[simp] theorem pinWithdrawn_calm {w₀ u : Units} (x : Ctx) (n : Fin 6) (hw : Calm w₀ u) :
    Calm w₀ (pinWithdrawn x n u) := by
  unfold pinWithdrawn
  (try dsimp only)
  (repeat' split) <;> first | exact hw | (simp (maxDischargeDepth := 40) [hw]; done) | exact ⟨hw.1, hw.2, hw.3,
      hw.4, hw.5, hw.6, hw.7, hw.8, hw.9⟩

/-! ## MotionEnd -/

@[simp] theorem dropRoomMotion_calm {w₀ u : Units} (n : Fin 6) (hw : Calm w₀ u) :
    Calm w₀ (dropRoomMotion n u) := by
  unfold dropRoomMotion
  (try dsimp only)
  (repeat' split) <;> first | exact hw | (simp (maxDischargeDepth := 40) [hw]; done) | exact ⟨hw.1, hw.2, hw.3,
      hw.4, hw.5, hw.6, hw.7, hw.8, hw.9⟩

@[simp] theorem roomOutputsOff_calm {w₀ u : Units} (n : Fin 6) (hw : Calm w₀ u) :
    Calm w₀ (roomOutputsOff n u) := by
  unfold roomOutputsOff
  (try dsimp only)
  (repeat' split) <;> first | exact hw | (simp (maxDischargeDepth := 40) [hw]; done) | exact ⟨hw.1, hw.2, hw.3,
      hw.4, hw.5, hw.6, hw.7, hw.8, hw.9⟩

@[simp] theorem roomRelease_calm {w₀ u : Units} (x : Ctx) (n : Fin 6) (hw : Calm w₀ u) :
    Calm w₀ (roomRelease x n u) := by
  unfold roomRelease
  (try dsimp only)
  (repeat' split) <;> first | exact hw | (simp (maxDischargeDepth := 40) [hw]; done) | exact ⟨hw.1, hw.2, hw.3,
      hw.4, hw.5, hw.6, hw.7, hw.8, hw.9⟩

@[simp] theorem endRoom_calm {w₀ u : Units} (x : Ctx) (n : Fin 6) (res : MotionResult) (st : RoomState) (hw : Calm
    w₀ u) :
    Calm w₀ (endRoom x n res st u) := by
  unfold endRoom
  (try dsimp only)
  (repeat' split) <;> first | exact hw | (simp (maxDischargeDepth := 40) [hw]; done) | exact ⟨hw.1, hw.2, hw.3,
      hw.4, hw.5, hw.6, hw.7, hw.8, hw.9⟩

@[simp] theorem roomStopProcedure_calm {w₀ u : Units} (x : Ctx) (n : Fin 6) (res : MotionResult) (hw : Calm w₀ u) :
    Calm w₀ (roomStopProcedure x n res u) := by
  unfold roomStopProcedure
  (try dsimp only)
  (repeat' split) <;> first | exact hw | (simp (maxDischargeDepth := 40) [hw]; done) | exact ⟨hw.1, hw.2, hw.3,
      hw.4, hw.5, hw.6, hw.7, hw.8, hw.9⟩

@[simp] theorem dropJackMotion_calm {w₀ u : Units} (st : JackSetState) (hw : Calm w₀ u) :
    Calm w₀ (dropJackMotion st u) := by
  unfold dropJackMotion
  (try dsimp only)
  (repeat' split) <;> first | exact hw | (simp (maxDischargeDepth := 40) [hw]; done) | exact ⟨hw.1, hw.2, hw.3,
      hw.4, hw.5, hw.6, hw.7, hw.8, hw.9⟩

@[simp] theorem endJacks_calm {w₀ u : Units} (x : Ctx) (res : MotionResult) (st : JackSetState) (hw : Calm w₀ u) :
    Calm w₀ (endJacks x res st u) := by
  unfold endJacks
  (try dsimp only)
  (repeat' split) <;> first | exact hw | (simp (maxDischargeDepth := 40) [hw]; done) | exact ⟨hw.1, hw.2, hw.3,
      hw.4, hw.5, hw.6, hw.7, hw.8, hw.9⟩

@[simp] theorem endAwning_calm {w₀ u : Units} (x : Ctx) (res : MotionResult) (st : AwningState) (hw : Calm w₀ u) :
    Calm w₀ (endAwning x res st u) := by
  unfold endAwning
  (try dsimp only)
  (repeat' split) <;> first | exact hw | (simp (maxDischargeDepth := 40) [hw]; done) | exact ⟨hw.1, hw.2, hw.3,
      hw.4, hw.5, hw.6, hw.7, hw.8, hw.9⟩

@[simp] theorem endRetract_calm {w₀ u : Units} (x : Ctx) (completed : Bool) (st : AwningState) (hw : Calm w₀ u) :
    Calm w₀ (endRetract x completed st u) := by
  unfold endRetract
  (try dsimp only)
  (repeat' split) <;> first | exact hw | (simp (maxDischargeDepth := 40) [hw]; done) | exact ⟨hw.1, hw.2, hw.3,
      hw.4, hw.5, hw.6, hw.7, hw.8, hw.9⟩

@[simp] theorem stopMotion_calm {w₀ u : Units} (x : Ctx) (g : Group) (res : MotionResult) (hw : Calm w₀ u) :
    Calm w₀ (stopMotion x g res u) := by
  unfold stopMotion
  (try dsimp only)
  (repeat' split) <;> first | exact hw | (simp (maxDischargeDepth := 40) [hw]; done) | exact ⟨hw.1, hw.2, hw.3,
      hw.4, hw.5, hw.6, hw.7, hw.8, hw.9⟩

@[simp] theorem abortMotion_calm {w₀ u : Units} (x : Ctx) (res : MotionResult) (g : Group) (hw : Calm w₀ u) :
    Calm w₀ (abortMotion x res u g) := by
  unfold abortMotion
  (try dsimp only)
  (repeat' split) <;> first | exact hw | (simp (maxDischargeDepth := 40) [hw]; done) | exact ⟨hw.1, hw.2, hw.3,
      hw.4, hw.5, hw.6, hw.7, hw.8, hw.9⟩

@[simp] theorem detach_calm {w₀ u : Units} (gs : List Group) (hw : Calm w₀ u) :
    Calm w₀ (detach gs u).1 := by
  unfold detach
  (try dsimp only)
  (repeat' split) <;> first | exact hw | (simp (maxDischargeDepth := 40) [hw]; done) | exact ⟨hw.1, hw.2, hw.3,
      hw.4, hw.5, hw.6, hw.7, hw.8, hw.9⟩

@[simp] theorem endAll_calm {w u : Units} (x : Ctx) (gs : List Group) (f : Units → Group → Units)
    (hf : ∀ v g, Calm v (f v g)) (h : Calm w u) : Calm w (endAll x gs f u) := by
  unfold endAll
  dsimp only
  split <;> simp (maxDischargeDepth := 30) [h, hf]

@[simp] theorem abortAll_calm {w₀ u : Units} (x : Ctx) (res : MotionResult) (hw : Calm w₀ u) :
    Calm w₀ (abortAll x res u) := by
  unfold abortAll
  (try dsimp only)
  (repeat' split) <;> first | exact hw | (simp (maxDischargeDepth := 40) [hw]; done) | exact ⟨hw.1, hw.2, hw.3,
      hw.4, hw.5, hw.6, hw.7, hw.8, hw.9⟩

/-! ## Halts -/

@[simp] theorem haltGroup_calm {w₀ u : Units} (x : Ctx) (g : Group) (hw : Calm w₀ u) :
    Calm w₀ (haltGroup x g u) := by
  unfold haltGroup
  (try dsimp only)
  (repeat' split) <;> first | exact hw | (simp (maxDischargeDepth := 40) [hw]; done) | exact ⟨hw.1, hw.2, hw.3,
      hw.4, hw.5, hw.6, hw.7, hw.8, hw.9⟩

@[simp] theorem haltB_calm {w₀ u : Units} (x : Ctx) (g : Group) (k : FaultCode) (d : Detail) (hw : Calm w₀ u) :
    Calm w₀ (haltB x g k d u) := by
  unfold haltB
  (try dsimp only)
  (repeat' split) <;> first | exact hw | (simp (maxDischargeDepth := 40) [hw]; done) | exact ⟨hw.1, hw.2, hw.3,
      hw.4, hw.5, hw.6, hw.7, hw.8, hw.9⟩

@[simp] theorem settleGroups_calm {w₀ u : Units} (x : Ctx) (hw : Calm w₀ u) :
    Calm w₀ (settleGroups x u) := by
  unfold settleGroups
  (try dsimp only)
  (repeat' split) <;> first | exact hw | (simp (maxDischargeDepth := 40) [hw]; done) | exact ⟨hw.1, hw.2, hw.3,
      hw.4, hw.5, hw.6, hw.7, hw.8, hw.9⟩

@[simp] theorem leaveFault_calm {w₀ u : Units} (x : Ctx) (g : Group) (hw : Calm w₀ u) :
    Calm w₀ (leaveFault x g u) := by
  unfold leaveFault
  (try dsimp only)
  (repeat' split) <;> first | exact hw | (simp (maxDischargeDepth := 40) [hw]; done) | exact ⟨hw.1, hw.2, hw.3,
      hw.4, hw.5, hw.6, hw.7, hw.8, hw.9⟩

/-! ## Claims -/

@[simp] theorem setPending_calm {w₀ u : Units} (n : Fin 6) (res : Option MotionResult) (hw : Calm w₀ u) :
    Calm w₀ (setPending n res u) := by
  unfold setPending
  (try dsimp only)
  (repeat' split) <;> first | exact hw | (simp (maxDischargeDepth := 40) [hw]; done) | exact ⟨hw.1, hw.2, hw.3,
      hw.4, hw.5, hw.6, hw.7, hw.8, hw.9⟩

@[simp] theorem stopForLink_calm {w₀ u : Units} (x : Ctx) (res : MotionResult) (g : Group) (hw : Calm w₀ u) :
    Calm w₀ (stopForLink x res g u) := by
  unfold stopForLink
  (try dsimp only)
  (repeat' split) <;> first | exact hw | (simp (maxDischargeDepth := 40) [hw]; done) | exact ⟨hw.1, hw.2, hw.3,
      hw.4, hw.5, hw.6, hw.7, hw.8, hw.9⟩

@[simp] theorem setMark_calm {w₀ u : Units} (g : Group) (hw : Calm w₀ u) :
    Calm w₀ (setMark g u) := by
  unfold setMark
  (try dsimp only)
  (repeat' split) <;> first | exact hw | (simp (maxDischargeDepth := 40) [hw]; done) | exact ⟨hw.1, hw.2, hw.3,
      hw.4, hw.5, hw.6, hw.7, hw.8, hw.9⟩

@[simp] theorem releaseGroup_calm {w₀ u : Units} (x : Ctx) (l : Link) (res : MotionResult) (g : Group) (hw : Calm
    w₀ u) :
    Calm w₀ (releaseGroup x l res u g) := by
  unfold releaseGroup
  (try dsimp only)
  (repeat' split) <;> first | exact hw | (simp (maxDischargeDepth := 40) [hw]; done) | exact ⟨hw.1, hw.2, hw.3,
      hw.4, hw.5, hw.6, hw.7, hw.8, hw.9⟩

@[simp] theorem releaseAll_calm {w₀ u : Units} (x : Ctx) (l : Link) (res : MotionResult) (gs : List Group) (hw :
    Calm w₀ u) :
    Calm w₀ (releaseAll x l res gs u) := by
  unfold releaseAll
  (try dsimp only)
  (repeat' split) <;> first | exact hw | (simp (maxDischargeDepth := 40) [hw]; done) | exact ⟨hw.1, hw.2, hw.3,
      hw.4, hw.5, hw.6, hw.7, hw.8, hw.9⟩

@[simp] theorem grantEntry_calm {w₀ u : Units} (x : Ctx) (i : Nat) (e : WaitEntry) (hw : Calm w₀ u) :
    Calm w₀ (grantEntry x i e u) := by
  unfold grantEntry
  (try dsimp only)
  (repeat' split) <;> first | exact hw | (simp (maxDischargeDepth := 40) [hw]; done) | exact ⟨hw.1, hw.2, hw.3,
      hw.4, hw.5, hw.6, hw.7, hw.8, hw.9⟩

@[simp] theorem walkFrom_calm {w : Units} (x : Ctx) : ∀ (fuel i : Nat) {u : Units}, Calm w u → Calm w (walkFrom x
    fuel i u)
  | 0, _, _, h => h
  | fuel + 1, i, u, h => by
    unfold walkFrom
    repeat' split
    · exact h
    · exact walkFrom_calm x fuel _ (grantEntry_calm _ _ _ h)
    · exact walkFrom_calm x fuel _ h

@[simp] theorem grantWalk_calm {w₀ u : Units} (x : Ctx) (hw : Calm w₀ u) :
    Calm w₀ (grantWalk x u) := by
  unfold grantWalk
  (try dsimp only)
  (repeat' split) <;> first | exact hw | (simp (maxDischargeDepth := 40) [hw]; done) | exact ⟨hw.1, hw.2, hw.3,
      hw.4, hw.5, hw.6, hw.7, hw.8, hw.9⟩

@[simp] theorem offerLost_calm {w₀ u : Units} (x : Ctx) (e : WaitEntry) (u0 : Units) (k : Link) (hw : Calm w₀ u) :
    Calm w₀ (offerLost x e u0 u k) := by
  unfold offerLost
  (try dsimp only)
  (repeat' split) <;> first | exact hw | (simp (maxDischargeDepth := 40) [hw]; done) | exact ⟨hw.1, hw.2, hw.3,
      hw.4, hw.5, hw.6, hw.7, hw.8, hw.9⟩

@[simp] theorem testPreemption_calm {w₀ u : Units} (x : Ctx) (i : Nat) (e : WaitEntry) (hw : Calm w₀ u) :
    Calm w₀ (testPreemption x i e u) := by
  unfold testPreemption
  (try dsimp only)
  (repeat' split) <;> first | exact hw | (simp (maxDischargeDepth := 40) [hw]; done) | exact ⟨hw.1, hw.2, hw.3,
      hw.4, hw.5, hw.6, hw.7, hw.8, hw.9⟩

@[simp] theorem testsFrom_calm {w : Units} (x : Ctx) (fresh : List Group) :
    ∀ (fuel i : Nat) {u : Units}, Calm w u → Calm w (testsFrom x fresh fuel i u)
  | 0, _, _, h => h
  | fuel + 1, i, u, h => by
    unfold testsFrom
    repeat' split
    · exact h
    · exact testsFrom_calm x fresh fuel _ (testPreemption_calm _ _ _ h)
    · exact testsFrom_calm x fresh fuel _ h

@[simp] theorem settleClaims_calm {w₀ u : Units} (x : Ctx) (u0 : Units) (hw : Calm w₀ u) :
    Calm w₀ (settleClaims x u0 u) := by
  unfold settleClaims
  (try dsimp only)
  (repeat' split) <;> first | exact hw | (simp (maxDischargeDepth := 40) [hw]; done) | exact ⟨hw.1, hw.2, hw.3,
      hw.4, hw.5, hw.6, hw.7, hw.8, hw.9⟩

@[simp] theorem emptyWaitList_calm {w₀ u : Units} (x : Ctx) (hw : Calm w₀ u) :
    Calm w₀ (emptyWaitList x u) := by
  unfold emptyWaitList
  (try dsimp only)
  (repeat' split) <;> first | exact hw | (simp (maxDischargeDepth := 40) [hw]; done) | exact ⟨hw.1, hw.2, hw.3,
      hw.4, hw.5, hw.6, hw.7, hw.8, hw.9⟩

/-! ## RoomRequests -/

@[simp] theorem startRoom_calm {w₀ u : Units} (x : Ctx) (n : Fin 6) (a : Asker) (d : Direction) (mode : Mode)
    (target : Option Int) (hw : Calm w₀ u) :
    Calm w₀ (startRoom x n a d mode target u) := by
  unfold startRoom
  (try dsimp only)
  (repeat' split) <;> first | exact hw | (simp (maxDischargeDepth := 40) [hw]; done) | exact ⟨hw.1, hw.2, hw.3,
      hw.4, hw.5, hw.6, hw.7, hw.8, hw.9⟩

@[simp] theorem updateRoom_calm {w₀ u : Units} (x : Ctx) (n : Fin 6) (a : Asker) (d : Direction) (mode : Mode)
    (target : Option Int) (hw : Calm w₀ u) :
    Calm w₀ (updateRoom x n a d mode target u) := by
  unfold updateRoom
  (try dsimp only)
  (repeat' split) <;> first | exact hw | (simp (maxDischargeDepth := 40) [hw]; done) | exact ⟨hw.1, hw.2, hw.3,
      hw.4, hw.5, hw.6, hw.7, hw.8, hw.9⟩

@[simp] theorem giveUpPin_calm {w₀ u : Units} (x : Ctx) (n : Fin 6) (hw : Calm w₀ u) :
    Calm w₀ (giveUpPin x n u) := by
  unfold giveUpPin
  (try dsimp only)
  (repeat' split) <;> first | exact hw | (simp (maxDischargeDepth := 40) [hw]; done) | exact ⟨hw.1, hw.2, hw.3,
      hw.4, hw.5, hw.6, hw.7, hw.8, hw.9⟩

@[simp] theorem reverseStep_calm {w₀ u : Units} (x : Ctx) (n : Fin 6) (d : Direction) (st : RoomStep) (hw : Calm w₀
    u) :
    Calm w₀ (reverseStep x n d st u) := by
  unfold reverseStep
  (try dsimp only)
  (repeat' split) <;> first | exact hw | (simp (maxDischargeDepth := 40) [hw]; done) | exact ⟨hw.1, hw.2, hw.3,
      hw.4, hw.5, hw.6, hw.7, hw.8, hw.9⟩

@[simp] theorem reverseRoom_calm {w₀ u : Units} (x : Ctx) (n : Fin 6) (a : Asker) (d : Direction) (mode : Mode)
    (target : Option Int) (m : RoomMotion) (hw : Calm w₀ u) :
    Calm w₀ (reverseRoom x n a d mode target m u) := by
  unfold reverseRoom
  (try dsimp only)
  (repeat' split) <;> first | exact hw | (simp (maxDischargeDepth := 40) [hw]; done) | exact ⟨hw.1, hw.2, hw.3,
      hw.4, hw.5, hw.6, hw.7, hw.8, hw.9⟩

@[simp] theorem handleRoomMove_calm {w₀ u : Units} (x : Ctx) (n : Fin 6) (a : Asker) (d : Direction) (mode : Mode)
    (target : Option Int) (hw : Calm w₀ u) :
    Calm w₀ (handleRoomMove x n a d mode target u).1 := by
  unfold handleRoomMove
  (try dsimp only)
  (repeat' split) <;> first | exact hw | (simp (maxDischargeDepth := 40) [hw]; done) | exact ⟨hw.1, hw.2, hw.3,
      hw.4, hw.5, hw.6, hw.7, hw.8, hw.9⟩

@[simp] theorem roomMove_calm {w₀ u : Units} (x : Ctx) (a : Asker) (g : Group) (d : Direction) (mode : Mode)
    (target : Option Int) (gen : Option Generation) (hw : Calm w₀ u) :
    Calm w₀ (roomMove x a g d mode target gen u).1 := by
  unfold roomMove
  (try dsimp only)
  (repeat' split) <;> first | exact hw | (simp (maxDischargeDepth := 40) [hw]; done) | exact ⟨hw.1, hw.2, hw.3,
      hw.4, hw.5, hw.6, hw.7, hw.8, hw.9⟩

@[simp] theorem roomStop_calm {w₀ u : Units} (x : Ctx) (g : Group) (hw : Calm w₀ u) :
    Calm w₀ (roomStop x g u).1 := by
  unfold roomStop
  (try dsimp only)
  (repeat' split) <;> first | exact hw | (simp (maxDischargeDepth := 40) [hw]; done) | exact ⟨hw.1, hw.2, hw.3,
      hw.4, hw.5, hw.6, hw.7, hw.8, hw.9⟩

/-! ## JackRequests -/

@[simp] theorem startJacks_calm {w₀ u : Units} (x : Ctx) (a : Asker) (k : JackAsk) (hw : Calm w₀ u) :
    Calm w₀ (startJacks x a k u) := by
  unfold startJacks
  (try dsimp only)
  (repeat' split) <;> first | exact hw | (simp (maxDischargeDepth := 40) [hw]; done) | exact ⟨hw.1, hw.2, hw.3,
      hw.4, hw.5, hw.6, hw.7, hw.8, hw.9⟩

@[simp] theorem updateJacks_calm {w₀ u : Units} (x : Ctx) (a : Asker) (k : JackAsk) (m : JackMotion) (hw : Calm w₀
    u) :
    Calm w₀ (updateJacks x a k m u) := by
  unfold updateJacks
  (try dsimp only)
  (repeat' split) <;> first | exact hw | (simp (maxDischargeDepth := 40) [hw]; done) | exact ⟨hw.1, hw.2, hw.3,
      hw.4, hw.5, hw.6, hw.7, hw.8, hw.9⟩

@[simp] theorem jackRequest_calm {w₀ u : Units} (x : Ctx) (a : Asker) (k : JackAsk) (gen : Option Generation) (hw :
    Calm w₀ u) :
    Calm w₀ (jackRequest x a k gen u).1 := by
  unfold jackRequest
  (try dsimp only)
  (repeat' split) <;> first | exact hw | (simp (maxDischargeDepth := 40) [hw]; done) | exact ⟨hw.1, hw.2, hw.3,
      hw.4, hw.5, hw.6, hw.7, hw.8, hw.9⟩

@[simp] theorem jackStop_calm {w₀ u : Units} (x : Ctx) (hw : Calm w₀ u) :
    Calm w₀ (jackStop x u).1 := by
  unfold jackStop
  (try dsimp only)
  (repeat' split) <;> first | exact hw | (simp (maxDischargeDepth := 40) [hw]; done) | exact ⟨hw.1, hw.2, hw.3,
      hw.4, hw.5, hw.6, hw.7, hw.8, hw.9⟩

/-! ## AwningRequests -/

@[simp] theorem startOwner_calm {w₀ u : Units} (x : Ctx) (a : Asker) (d : Direction) (mode : Mode) (percent :
    Option Nat) (hw : Calm w₀ u) :
    Calm w₀ (startOwner x a d mode percent u) := by
  unfold startOwner
  (try dsimp only)
  (repeat' split) <;> first | exact hw | (simp (maxDischargeDepth := 40) [hw]; done) | exact ⟨hw.1, hw.2, hw.3,
      hw.4, hw.5, hw.6, hw.7, hw.8, hw.9⟩

@[simp] theorem reverseOwnerStep_calm {w₀ u : Units} (x : Ctx) (st : AwningStep) (hw : Calm w₀ u) :
    Calm w₀ (reverseOwnerStep x st u) := by
  unfold reverseOwnerStep
  (try dsimp only)
  (repeat' split) <;> first | exact hw | (simp (maxDischargeDepth := 40) [hw]; done) | exact ⟨hw.1, hw.2, hw.3,
      hw.4, hw.5, hw.6, hw.7, hw.8, hw.9⟩

@[simp] theorem handleAwningMove_calm {w₀ u : Units} (x : Ctx) (a : Asker) (d : Direction) (mode : Mode) (percent :
    Option Nat) (hw : Calm w₀ u) :
    Calm w₀ (handleAwningMove x a d mode percent u).1 := by
  unfold handleAwningMove
  (try dsimp only)
  (repeat' split) <;> first | exact hw | (simp (maxDischargeDepth := 40) [hw]; done) | exact ⟨hw.1, hw.2, hw.3,
      hw.4, hw.5, hw.6, hw.7, hw.8, hw.9⟩

@[simp] theorem awningMove_calm {w₀ u : Units} (x : Ctx) (a : Asker) (d : Direction) (mode : Mode) (percent :
    Option Nat) (gen : Option Generation) (hw : Calm w₀ u) :
    Calm w₀ (awningMove x a d mode percent gen u).1 := by
  unfold awningMove
  (try dsimp only)
  (repeat' split) <;> first | exact hw | (simp (maxDischargeDepth := 40) [hw]; done) | exact ⟨hw.1, hw.2, hw.3,
      hw.4, hw.5, hw.6, hw.7, hw.8, hw.9⟩

@[simp] theorem awningStop_calm {w₀ u : Units} (x : Ctx) (hw : Calm w₀ u) :
    Calm w₀ (awningStop x u).1 := by
  unfold awningStop
  (try dsimp only)
  (repeat' split) <;> first | exact hw | (simp (maxDischargeDepth := 40) [hw]; done) | exact ⟨hw.1, hw.2, hw.3,
      hw.4, hw.5, hw.6, hw.7, hw.8, hw.9⟩

/-! ## LineMap -/

@[simp] theorem deliverAction_calm {w₀ u : Units} (x : Ctx) (a : Asker) (mode : Mode) (k : MapAction) (hw : Calm w₀
    u) :
    Calm w₀ (deliverAction x a mode k u).1 := by
  unfold deliverAction
  (try dsimp only)
  (repeat' split) <;> first | exact hw | (simp (maxDischargeDepth := 40) [hw]; done) | exact ⟨hw.1, hw.2, hw.3,
      hw.4, hw.5, hw.6, hw.7, hw.8, hw.9⟩

@[simp] theorem deliver_calm {w₀ u : Units} (x : Ctx) (l : Line) (e : MapEntry) (hw : Calm w₀ u) :
    Calm w₀ (deliver x l e u) := by
  unfold deliver
  (try dsimp only)
  (repeat' split) <;> first | exact hw | (simp (maxDischargeDepth := 40) [hw]; done) | exact ⟨hw.1, hw.2, hw.3,
      hw.4, hw.5, hw.6, hw.7, hw.8, hw.9⟩

@[simp] theorem setPendingMark_calm {w₀ u : Units} (l : Line) (b : Bool) (hw : Calm w₀ u) :
    Calm w₀ (setPendingMark l b u) := by
  unfold setPendingMark
  (try dsimp only)
  (repeat' split) <;> first | exact hw | (simp (maxDischargeDepth := 40) [hw]; done) | exact ⟨hw.1, hw.2, hw.3,
      hw.4, hw.5, hw.6, hw.7, hw.8, hw.9⟩

@[simp] theorem lineReleased_calm {w₀ u : Units} (x : Ctx) (g : Group) (l : Line) (hw : Calm w₀ u) :
    Calm w₀ (lineReleased x g l u) := by
  unfold lineReleased
  (try dsimp only)
  (repeat' split) <;> first | exact hw | (simp (maxDischargeDepth := 40) [hw]; done) | exact ⟨hw.1, hw.2, hw.3,
      hw.4, hw.5, hw.6, hw.7, hw.8, hw.9⟩

/-! ## ClaimRequests -/

@[simp] theorem convertClaim_calm {w₀ u : Units} (x : Ctx) (g : Group) (hw : Calm w₀ u) :
    Calm w₀ (convertClaim x u g) := by
  unfold convertClaim
  (try dsimp only)
  (repeat' split) <;> first | exact hw | (simp (maxDischargeDepth := 40) [hw]; done) | exact ⟨hw.1, hw.2, hw.3,
      hw.4, hw.5, hw.6, hw.7, hw.8, hw.9⟩

@[simp] theorem effectClaim_calm {w₀ u : Units} (x : Ctx) (l : Link) (tag : Byte) (gs : List Group) (rest : List
    Group) (hw : Calm w₀ u) :
    Calm w₀ (effectClaim x l tag gs rest u).1 := by
  unfold effectClaim
  (try dsimp only)
  (repeat' split) <;> first | exact hw | (simp (maxDischargeDepth := 40) [hw]; done) | exact ⟨hw.1, hw.2, hw.3,
      hw.4, hw.5, hw.6, hw.7, hw.8, hw.9⟩

@[simp] theorem claimRequest_calm {w₀ u : Units} (x : Ctx) (l : Link) (tag : Byte) (gs : List Group) (wait : Bool)
    (gen : Option Generation) (hw : Calm w₀ u) :
    Calm w₀ (claimRequest x l tag gs wait gen u).1 := by
  unfold claimRequest
  (try dsimp only)
  (repeat' split) <;> first | exact hw | (simp (maxDischargeDepth := 40) [hw]; done) | exact ⟨hw.1, hw.2, hw.3,
      hw.4, hw.5, hw.6, hw.7, hw.8, hw.9⟩

@[simp] theorem releaseRequest_calm {w₀ u : Units} (x : Ctx) (l : Link) (gs : List Group) (hw : Calm w₀ u) :
    Calm w₀ (releaseRequest x l gs u).1 := by
  unfold releaseRequest
  (try dsimp only)
  (repeat' split) <;> first | exact hw | (simp (maxDischargeDepth := 40) [hw]; done) | exact ⟨hw.1, hw.2, hw.3,
      hw.4, hw.5, hw.6, hw.7, hw.8, hw.9⟩

@[simp] theorem stopAll_calm {w₀ u : Units} (x : Ctx) (hw : Calm w₀ u) :
    Calm w₀ (stopAll x u).1 := by
  unfold stopAll
  (try dsimp only)
  (repeat' split) <;> first | exact hw | (simp (maxDischargeDepth := 40) [hw]; done) | exact ⟨hw.1, hw.2, hw.3,
      hw.4, hw.5, hw.6, hw.7, hw.8, hw.9⟩

@[simp] theorem setHold_calm {w₀ u : Units} (g : Group) (h : HoldSource) (hw : Calm w₀ u) :
    Calm w₀ (setHold g h u) := by
  unfold setHold
  (try dsimp only)
  (repeat' split) <;> first | exact hw | (simp (maxDischargeDepth := 40) [hw]; done) | exact ⟨hw.1, hw.2, hw.3,
      hw.4, hw.5, hw.6, hw.7, hw.8, hw.9⟩

@[simp] theorem holdRefresh_calm {w₀ u : Units} (x : Ctx) (l : Link) (g : Group) (hw : Calm w₀ u) :
    Calm w₀ (holdRefresh x l g u).1 := by
  unfold holdRefresh
  (try dsimp only)
  (repeat' split) <;> first | exact hw | (simp (maxDischargeDepth := 40) [hw]; done) | exact ⟨hw.1, hw.2, hw.3,
      hw.4, hw.5, hw.6, hw.7, hw.8, hw.9⟩

/-! ## SetupRequests -/

@[simp] theorem commitGroups_calm {w₀ u : Units} (x : Ctx) (hw : Calm w₀ u) :
    Calm w₀ (commitGroups x u) := by
  unfold commitGroups
  (try dsimp only)
  (repeat' split) <;> first | exact hw | (simp (maxDischargeDepth := 40) [hw]; done) | exact ⟨hw.1, hw.2, hw.3,
      hw.4, hw.5, hw.6, hw.7, hw.8, hw.9⟩

/-! ## Settle -/

@[simp] theorem endDriveStep_calm {w₀ u : Units} (x : Ctx) (n : Fin 6) (m : RoomMotion) (hw : Calm w₀ u) :
    Calm w₀ (endDriveStep x n m u) := by
  unfold endDriveStep
  (try dsimp only)
  (repeat' split) <;> first | exact hw | (simp (maxDischargeDepth := 40) [hw]; done) | exact ⟨hw.1, hw.2, hw.3,
      hw.4, hw.5, hw.6, hw.7, hw.8, hw.9⟩

@[simp] theorem closeAtLimit_calm {w₀ u : Units} (x : Ctx) (hw : Calm w₀ u) :
    Calm w₀ (closeAtLimit x u) := by
  unfold closeAtLimit
  (try dsimp only)
  (repeat' split) <;> first | exact hw | (simp (maxDischargeDepth := 40) [hw]; done) | exact ⟨hw.1, hw.2, hw.3,
      hw.4, hw.5, hw.6, hw.7, hw.8, hw.9⟩

theorem roomDue_calm {x : Ctx} {n : Fin 6} {u v : Units} (h : roomDue x n u = some v) : Calm u v := by
  unfold roomDue at h
  repeat' split at h
  all_goals first
    | contradiction
    | (cases h; exact endRoom_calm _ _ _ _ (.refl _))
    | (cases h; exact pinWithdrawn_calm _ _ (.refl _))
    | (cases h; exact endDriveStep_calm _ _ _ (.refl _))

theorem ifChanged_calm {u v w : Units} (hv : Calm u v) (h : ifChanged u v = some w) : Calm u w := by
  unfold ifChanged at h
  split at h
  · contradiction
  · cases h; exact hv

theorem jacksDue_calm {x : Ctx} {u v : Units} (h : jacksDue x u = some v) : Calm u v := by
  unfold jacksDue at h
  repeat' split at h
  all_goals first
    | contradiction
    | exact ifChanged_calm (updImage_calm _ (.refl _)) h
    | exact ifChanged_calm (closeAtLimit_calm _ (.refl _)) h
    | (cases h; exact beginSettle_calm _ (.refl _))
    | (cases h; exact endJacks_calm _ _ _ (.refl _))
    | (cases h; exact beginReseek_calm _ (updJackMotion_calm _ (.refl _)))

theorem awningDue_calm {x : Ctx} {u v : Units} (h : awningDue x u = some v) : Calm u v := by
  unfold awningDue at h
  repeat' split at h
  all_goals first
    | contradiction
    | (cases h; exact endRetract_calm _ _ _ (.refl _))
    | (cases h; exact endAwning_calm _ _ _ (.refl _))

theorem stepDue_calm {x : Ctx} {u v : Units} (h : stepDue x u = some v) : Calm u v := by
  unfold stepDue at h
  split at h
  · next k =>
    cases h
    obtain ⟨n, _, hn⟩ := List.exists_of_findSome?_eq_some k
    exact roomDue_calm hn
  split at h
  · next k => cases h; exact jacksDue_calm k
  · exact awningDue_calm h

@[simp] theorem settleSteps_calm {w : Units} (x : Ctx) : ∀ (fuel : Nat) {u : Units}, Calm w u → Calm w (settleSteps
    x fuel u)
  | 0, _, h => h
  | fuel + 1, u, h => by
    unfold settleSteps
    split
    · next k => exact settleSteps_calm x fuel (h.trans (stepDue_calm k))
    · exact h

@[simp] theorem permitFall_calm {w₀ u : Units} (x : Ctx) (hw : Calm w₀ u) :
    Calm w₀ (permitFall x u) := by
  unfold permitFall
  (try dsimp only)
  (repeat' split) <;> first | exact hw | (simp (maxDischargeDepth := 40) [hw]; done) | exact ⟨hw.1, hw.2, hw.3,
      hw.4, hw.5, hw.6, hw.7, hw.8, hw.9⟩

@[simp] theorem stopRetract_calm {w₀ u : Units} (x : Ctx) (u0 : Units) (hw : Calm w₀ u) :
    Calm w₀ (stopRetract x u0 u) := by
  unfold stopRetract
  (try dsimp only)
  (repeat' split) <;> first | exact hw | (simp (maxDischargeDepth := 40) [hw]; done) | exact ⟨hw.1, hw.2, hw.3,
      hw.4, hw.5, hw.6, hw.7, hw.8, hw.9⟩

@[simp] theorem followAwning_calm {w₀ u : Units} (x0 : Ctx) (u0 : Units) (x : Ctx) (hw : Calm w₀ u) :
    Calm w₀ (followAwning x0 u0 x u) := by
  unfold followAwning
  (try dsimp only)
  (repeat' split) <;> first | exact hw | (simp (maxDischargeDepth := 40) [hw]; done) | exact ⟨hw.1, hw.2, hw.3,
      hw.4, hw.5, hw.6, hw.7, hw.8, hw.9⟩

@[simp] theorem clearMarks_calm {w₀ u : Units} (x : Ctx) (hw : Calm w₀ u) :
    Calm w₀ (clearMarks x u) := by
  unfold clearMarks
  (try dsimp only)
  (repeat' split) <;> first | exact hw | (simp (maxDischargeDepth := 40) [hw]; done) | exact ⟨hw.1, hw.2, hw.3,
      hw.4, hw.5, hw.6, hw.7, hw.8, hw.9⟩

@[simp] theorem overtakeOwner_calm {w₀ u : Units} (x : Ctx) (hw : Calm w₀ u) :
    Calm w₀ (overtakeOwner x u) := by
  unfold overtakeOwner
  (try dsimp only)
  (repeat' split) <;> first | exact hw | (simp (maxDischargeDepth := 40) [hw]; done) | exact ⟨hw.1, hw.2, hw.3,
      hw.4, hw.5, hw.6, hw.7, hw.8, hw.9⟩

@[simp] theorem startRetract_calm {w₀ u : Units} (x : Ctx) (hw : Calm w₀ u) :
    Calm w₀ (startRetract x u) := by
  unfold startRetract
  (try dsimp only)
  (repeat' split) <;> first | exact hw | (simp (maxDischargeDepth := 40) [hw]; done) | exact ⟨hw.1, hw.2, hw.3,
      hw.4, hw.5, hw.6, hw.7, hw.8, hw.9⟩

@[simp] theorem passToWind_calm {w₀ u : Units} (x : Ctx) (hw : Calm w₀ u) :
    Calm w₀ (passToWind x u) := by
  unfold passToWind
  (try dsimp only)
  (repeat' split) <;> first | exact hw | (simp (maxDischargeDepth := 40) [hw]; done) | exact ⟨hw.1, hw.2, hw.3,
      hw.4, hw.5, hw.6, hw.7, hw.8, hw.9⟩

@[simp] theorem judgeRetract_calm {w₀ u : Units} (x : Ctx) (hw : Calm w₀ u) :
    Calm w₀ (judgeRetract x u) := by
  unfold judgeRetract
  (try dsimp only)
  (repeat' split) <;> first | exact hw | (simp (maxDischargeDepth := 40) [hw]; done) | exact ⟨hw.1, hw.2, hw.3,
      hw.4, hw.5, hw.6, hw.7, hw.8, hw.9⟩

/-! ## ClaimTimers -/

@[simp] theorem firstTest_calm {w₀ u : Units} (i : Nat) (e : WaitEntry) (x : Ctx) (hw : Calm w₀ u) :
    Calm w₀ (firstTest i e x u) := by
  unfold firstTest
  (try dsimp only)
  (repeat' split) <;> first | exact hw | (simp (maxDischargeDepth := 40) [hw]; done) | exact ⟨hw.1, hw.2, hw.3,
      hw.4, hw.5, hw.6, hw.7, hw.8, hw.9⟩

@[simp] theorem expireEntry_calm {w₀ u : Units} (i : Nat) (e : WaitEntry) (x : Ctx) (hw : Calm w₀ u) :
    Calm w₀ (expireEntry i e x u) := by
  unfold expireEntry
  (try dsimp only)
  (repeat' split) <;> first | exact hw | (simp (maxDischargeDepth := 40) [hw]; done) | exact ⟨hw.1, hw.2, hw.3,
      hw.4, hw.5, hw.6, hw.7, hw.8, hw.9⟩

/-! ## Samples -/

@[simp] theorem confirmOverload_calm {w₀ u : Units} (v : Int) (x : Ctx) (hw : Calm w₀ u) :
    Calm w₀ (confirmOverload v x u) := by
  unfold confirmOverload
  (try dsimp only)
  (repeat' split) <;> first | exact hw | (simp (maxDischargeDepth := 40) [hw]; done) | exact ⟨hw.1, hw.2, hw.3,
      hw.4, hw.5, hw.6, hw.7, hw.8, hw.9⟩

@[simp] theorem checkOverload_calm {w₀ u : Units} (v : Int) (x : Ctx) (hw : Calm w₀ u) :
    Calm w₀ (checkOverload v x u) := by
  unfold checkOverload
  (try dsimp only)
  (repeat' split) <;> first | exact hw | (simp (maxDischargeDepth := 40) [hw]; done) | exact ⟨hw.1, hw.2, hw.3,
      hw.4, hw.5, hw.6, hw.7, hw.8, hw.9⟩

@[simp] theorem followJacks_calm {w₀ u : Units} (x : Ctx) (hw : Calm w₀ u) :
    Calm w₀ (followJacks x u) := by
  unfold followJacks
  (try dsimp only)
  (repeat' split) <;> first | exact hw | (simp (maxDischargeDepth := 40) [hw]; done) | exact ⟨hw.1, hw.2, hw.3,
      hw.4, hw.5, hw.6, hw.7, hw.8, hw.9⟩

@[simp] theorem endLift_calm {w₀ u : Units} (x : Ctx) (hw : Calm w₀ u) :
    Calm w₀ (endLift x u) := by
  unfold endLift
  (try dsimp only)
  (repeat' split) <;> first | exact hw | (simp (maxDischargeDepth := 40) [hw]; done) | exact ⟨hw.1, hw.2, hw.3,
      hw.4, hw.5, hw.6, hw.7, hw.8, hw.9⟩

@[simp] theorem liftSample_calm {w₀ u : Units} (a : TiltAxis) (v : Int) (x : Ctx) (hw : Calm w₀ u) :
    Calm w₀ (liftSample a v x u) := by
  unfold liftSample
  (try dsimp only)
  (repeat' split) <;> first | exact hw | (simp (maxDischargeDepth := 40) [hw]; done) | exact ⟨hw.1, hw.2, hw.3,
      hw.4, hw.5, hw.6, hw.7, hw.8, hw.9⟩

@[simp] theorem watchDrift_calm {w₀ u : Units} (x : Ctx) (hw : Calm w₀ u) :
    Calm w₀ (watchDrift x u) := by
  unfold watchDrift
  (try dsimp only)
  (repeat' split) <;> first | exact hw | (simp (maxDischargeDepth := 40) [hw]; done) | exact ⟨hw.1, hw.2, hw.3,
      hw.4, hw.5, hw.6, hw.7, hw.8, hw.9⟩

/-! ## AxisCommands -/

@[simp] theorem reshapeEnd_calm {w₀ u : Units} (x0 : Ctx) (x : Ctx) (n : Fin 6) (e : RoomEnd) (hw : Calm w₀ u) :
    Calm w₀ (reshapeEnd x0 x n e u) := by
  unfold reshapeEnd
  (try dsimp only)
  (repeat' split) <;> first | exact hw | (simp (maxDischargeDepth := 40) [hw]; done) | exact ⟨hw.1, hw.2, hw.3,
      hw.4, hw.5, hw.6, hw.7, hw.8, hw.9⟩

@[simp] theorem reshapeAwning_calm {w₀ u : Units} (x0 : Ctx) (x : Ctx) (hw : Calm w₀ u) :
    Calm w₀ (reshapeAwning x0 x u) := by
  unfold reshapeAwning
  (try dsimp only)
  (repeat' split) <;> first | exact hw | (simp (maxDischargeDepth := 40) [hw]; done) | exact ⟨hw.1, hw.2, hw.3,
      hw.4, hw.5, hw.6, hw.7, hw.8, hw.9⟩

@[simp] theorem followRoom_calm {w₀ u : Units} (x : Ctx) (n : Fin 6) (hw : Calm w₀ u) :
    Calm w₀ (followRoom x n u) := by
  unfold followRoom
  (try dsimp only)
  (repeat' split) <;> first | exact hw | (simp (maxDischargeDepth := 40) [hw]; done) | exact ⟨hw.1, hw.2, hw.3,
      hw.4, hw.5, hw.6, hw.7, hw.8, hw.9⟩

@[simp] theorem freeHeldEnd_calm {w₀ u : Units} (x : Ctx) (n : Fin 6) (hw : Calm w₀ u) :
    Calm w₀ (freeHeldEnd x n u) := by
  unfold freeHeldEnd
  (try dsimp only)
  (repeat' split) <;> first | exact hw | (simp (maxDischargeDepth := 40) [hw]; done) | exact ⟨hw.1, hw.2, hw.3,
      hw.4, hw.5, hw.6, hw.7, hw.8, hw.9⟩

@[simp] theorem endOff_calm {w₀ u : Units} (x : Ctx) (n : Fin 6) (e : RoomEnd) (hw : Calm w₀ u) :
    Calm w₀ (endOff x n e u) := by
  unfold endOff
  (try dsimp only)
  (repeat' split) <;> first | exact hw | (simp (maxDischargeDepth := 40) [hw]; done) | exact ⟨hw.1, hw.2, hw.3,
      hw.4, hw.5, hw.6, hw.7, hw.8, hw.9⟩

@[simp] theorem endHome_calm {w₀ u : Units} (x : Ctx) (n : Fin 6) (e : RoomEnd) (before : Counter) (hw : Calm w₀ u) :
    Calm w₀ (endHome x n e before u) := by
  unfold endHome
  (try dsimp only)
  (repeat' split) <;> first | exact hw | (simp (maxDischargeDepth := 40) [hw]; done) | exact ⟨hw.1, hw.2, hw.3,
      hw.4, hw.5, hw.6, hw.7, hw.8, hw.9⟩

@[simp] theorem endPausedRetract_calm {w₀ u : Units} (x0 x : Ctx) (n : Fin 6) (hw : Calm w₀ u) :
    Calm w₀ (endPausedRetract x0 x n u) := by
  unfold endPausedRetract
  (try dsimp only)
  (repeat' split) <;> first | exact hw | (simp (maxDischargeDepth := 40) [hw]; done) | exact ⟨hw.1, hw.2, hw.3,
      hw.4, hw.5, hw.6, hw.7, hw.8, hw.9⟩

@[simp] theorem reactIn_calm {w₀ u : Units} (x0 : Ctx) (n : Fin 6) (e : RoomEnd) (made : Bool) (x : Ctx) (hw : Calm
    w₀ u) :
    Calm w₀ (reactIn x0 n e made x u) := by
  unfold reactIn
  (try dsimp only)
  (repeat' split) <;> first | exact hw | (simp (maxDischargeDepth := 40) [hw]; done) | exact ⟨hw.1, hw.2, hw.3,
      hw.4, hw.5, hw.6, hw.7, hw.8, hw.9⟩

@[simp] theorem followAwningSwitch_calm {w₀ u : Units} (x : Ctx) (hw : Calm w₀ u) :
    Calm w₀ (followAwningSwitch x u) := by
  unfold followAwningSwitch
  (try dsimp only)
  (repeat' split) <;> first | exact hw | (simp (maxDischargeDepth := 40) [hw]; done) | exact ⟨hw.1, hw.2, hw.3,
      hw.4, hw.5, hw.6, hw.7, hw.8, hw.9⟩

@[simp] theorem reactAwningSwitch_calm {w₀ u : Units} (x0 : Ctx) (made : Bool) (x : Ctx) (hw : Calm w₀ u) :
    Calm w₀ (reactAwningSwitch x0 made x u) := by
  unfold reactAwningSwitch
  (try dsimp only)
  (repeat' split) <;> first | exact hw | (simp (maxDischargeDepth := 40) [hw]; done) | exact ⟨hw.1, hw.2, hw.3,
      hw.4, hw.5, hw.6, hw.7, hw.8, hw.9⟩

@[simp] theorem syncHold_calm {w₀ u : Units} (x : Ctx) (n : Fin 6) (hw : Calm w₀ u) :
    Calm w₀ (syncHold x n u) := by
  unfold syncHold
  (try dsimp only)
  (repeat' split) <;> first | exact hw | (simp (maxDischargeDepth := 40) [hw]; done) | exact ⟨hw.1, hw.2, hw.3,
      hw.4, hw.5, hw.6, hw.7, hw.8, hw.9⟩

@[simp] theorem stopAtEnd_calm {w₀ u : Units} (x : Ctx) (n : Fin 6) (e : RoomEnd) (hw : Calm w₀ u) :
    Calm w₀ (stopAtEnd x n e u) := by
  unfold stopAtEnd
  (try dsimp only)
  (repeat' split) <;> first | exact hw | (simp (maxDischargeDepth := 40) [hw]; done) | exact ⟨hw.1, hw.2, hw.3,
      hw.4, hw.5, hw.6, hw.7, hw.8, hw.9⟩

@[simp] theorem releasePin_calm {w₀ u : Units} (x : Ctx) (n : Fin 6) (hw : Calm w₀ u) :
    Calm w₀ (releasePin x n u) := by
  unfold releasePin
  (try dsimp only)
  (repeat' split) <;> first | exact hw | (simp (maxDischargeDepth := 40) [hw]; done) | exact ⟨hw.1, hw.2, hw.3,
      hw.4, hw.5, hw.6, hw.7, hw.8, hw.9⟩

/-! ## WindCommands -/

@[simp] theorem reactSecond_calm {w₀ u : Units} (was : Bool) (x : Ctx) (hw : Calm w₀ u) :
    Calm w₀ (reactSecond was x u) := by
  unfold reactSecond
  (try dsimp only)
  (repeat' split) <;> first | exact hw | (simp (maxDischargeDepth := 40) [hw]; done) | exact ⟨hw.1, hw.2, hw.3,
      hw.4, hw.5, hw.6, hw.7, hw.8, hw.9⟩

/-! ## MotionTimers -/

@[simp] theorem driveAfterDwell_calm {w₀ u : Units} (x : Ctx) (n : Fin 6) (hw : Calm w₀ u) :
    Calm w₀ (driveAfterDwell x n u) := by
  unfold driveAfterDwell
  (try dsimp only)
  (repeat' split) <;> first | exact hw | (simp (maxDischargeDepth := 40) [hw]; done) | exact ⟨hw.1, hw.2, hw.3,
      hw.4, hw.5, hw.6, hw.7, hw.8, hw.9⟩

@[simp] theorem endDwell_calm {w₀ u : Units} (n : Fin 6) (x : Ctx) (hw : Calm w₀ u) :
    Calm w₀ (endDwell n x u) := by
  unfold endDwell
  (try dsimp only)
  (repeat' split) <;> first | exact hw | (simp (maxDischargeDepth := 40) [hw]; done) | exact ⟨hw.1, hw.2, hw.3,
      hw.4, hw.5, hw.6, hw.7, hw.8, hw.9⟩

@[simp] theorem endAwningDwell_calm {w₀ u : Units} (x : Ctx) (hw : Calm w₀ u) :
    Calm w₀ (endAwningDwell x u) := by
  unfold endAwningDwell
  (try dsimp only)
  (repeat' split) <;> first | exact hw | (simp (maxDischargeDepth := 40) [hw]; done) | exact ⟨hw.1, hw.2, hw.3,
      hw.4, hw.5, hw.6, hw.7, hw.8, hw.9⟩

@[simp] theorem beginLift_calm {w₀ u : Units} (x : Ctx) (hw : Calm w₀ u) :
    Calm w₀ (beginLift x u) := by
  unfold beginLift
  (try dsimp only)
  (repeat' split) <;> first | exact hw | (simp (maxDischargeDepth := 40) [hw]; done) | exact ⟨hw.1, hw.2, hw.3,
      hw.4, hw.5, hw.6, hw.7, hw.8, hw.9⟩

@[simp] theorem comparePass_calm {w₀ u : Units} (x : Ctx) (passes : Nat) (hw : Calm w₀ u) :
    Calm w₀ (comparePass x passes u) := by
  unfold comparePass
  (try dsimp only)
  (repeat' split) <;> first | exact hw | (simp (maxDischargeDepth := 40) [hw]; done) | exact ⟨hw.1, hw.2, hw.3,
      hw.4, hw.5, hw.6, hw.7, hw.8, hw.9⟩

@[simp] theorem endSettle_calm {w₀ u : Units} (x : Ctx) (hw : Calm w₀ u) :
    Calm w₀ (endSettle x u) := by
  unfold endSettle
  (try dsimp only)
  (repeat' split) <;> first | exact hw | (simp (maxDischargeDepth := 40) [hw]; done) | exact ⟨hw.1, hw.2, hw.3,
      hw.4, hw.5, hw.6, hw.7, hw.8, hw.9⟩

/-! ## ManifoldTimers -/

@[simp] theorem endSwitching_calm {w₀ u : Units} (x : Ctx) (hw : Calm w₀ u) :
    Calm w₀ (endSwitching x u) := by
  unfold endSwitching
  (try dsimp only)
  (repeat' split) <;> first | exact hw | (simp (maxDischargeDepth := 40) [hw]; done) | exact ⟨hw.1, hw.2, hw.3,
      hw.4, hw.5, hw.6, hw.7, hw.8, hw.9⟩

@[simp] theorem nextHeatInterval_calm {w₀ u : Units} (ms : Nat) (hw : Calm w₀ u) :
    Calm w₀ (nextHeatInterval ms u) := by
  unfold nextHeatInterval
  (try dsimp only)
  (repeat' split) <;> first | exact hw | (simp (maxDischargeDepth := 40) [hw]; done) | exact ⟨hw.1, hw.2, hw.3,
      hw.4, hw.5, hw.6, hw.7, hw.8, hw.9⟩

@[simp] theorem pauseForHeat_calm {w₀ u : Units} (x : Ctx) (k : ManifoldUser) (hw : Calm w₀ u) :
    Calm w₀ (pauseForHeat x k u) := by
  unfold pauseForHeat
  (try dsimp only)
  (repeat' split) <;> first | exact hw | (simp (maxDischargeDepth := 40) [hw]; done) | exact ⟨hw.1, hw.2, hw.3,
      hw.4, hw.5, hw.6, hw.7, hw.8, hw.9⟩

@[simp] theorem enterCooling_calm {w₀ u : Units} (x : Ctx) (hw : Calm w₀ u) :
    Calm w₀ (enterCooling x u) := by
  unfold enterCooling
  (try dsimp only)
  (repeat' split) <;> first | exact hw | (simp (maxDischargeDepth := 40) [hw]; done) | exact ⟨hw.1, hw.2, hw.3,
      hw.4, hw.5, hw.6, hw.7, hw.8, hw.9⟩

end Sys2Proof.Laws
end

