-- ==== Sys2Proof/Laws/Kept.lean ====
section
/-! SUPPORT. What every event keeps. `Same w v`: v has w's CHAIN_EN and fault records, a frame in flight where w has one,
and bounded notice queues where w has. `Kept P` says that P survives what the units do but for the clearing of a record
and the start of a frame: a raise, a mark cleared, a record brought to CLEARABLE, and everything that is Same; `Framed P`
adds the start and the end of a frame. One lemma per unit lifts that to the settlement. -/
namespace Sys2Proof.Laws
open Sys2Proof.Machine

/-- CHAIN_EN, the fault records and whether a frame is in flight are the same, and notice queues within their bound stay
within it. -/
structure Same (w v : Units) : Prop where
  chainEn : v.chainEn = w.chainEn
  faults : v.faults = w.faults
  flight : v.flight.isNone = w.flight.isNone
  notices : noticesBounded w → noticesBounded v

theorem Same.refl (u : Units) : Same u u := ⟨rfl, rfl, rfl, fun n l => n l⟩

theorem Same.trans {a b c : Units} (h : Same a b) (k : Same b c) : Same a c :=
  ⟨k.1.trans h.1, k.2.trans h.2, k.3.trans h.3, fun n => k.4 (h.4 n)⟩

theorem Calm.same {w v : Units} (h : Calm w v) : Same w v := ⟨h.1, h.2, by rw [h.4], h.9⟩

/-- The units with a code raised on a record and, for COACH, CHAIN_EN low: all of a raise that Same does not cover. -/
def afterRaise (now : CoachTime) (s : Subject) (k : FaultCode) (d : Detail) (u : Units) : Units :=
  { u with
    faults := u.faults.set (subjectIdx s) (raisedRecord now k d (faultOf u s))
    chainEn := match s with
      | .coach => false
      | .group _ => u.chainEn }

/-- What survives everything but the clearing of a record and the rise of CHAIN_EN. -/
structure Kept (P : Units → Prop) : Prop where
  same : ∀ {u v}, Same u v → P u → P v
  raised : ∀ {u} t s k d, P u → P (afterRaise t s k d u)
  unmarked : ∀ {u} s k, P u → P (clearPresent s k u)
  settled : ∀ {u}, P u → P (settleRecords u)
  lowered : ∀ {u : Units}, P u → P { u with chainEn := false }

theorem Kept.calm {P : Units → Prop} (hP : Kept P) {u v : Units} (h : Calm u v) (hu : P u) : P v := hP.same h.same hu

theorem kept_foldl {P : Units → Prop} {α : Type} (f : Units → α → Units) (hf : ∀ u a, P u → P (f u a)) :
    ∀ (l : List α) {u : Units}, P u → P (l.foldl f u)
  | [], _, h => h
  | a :: l, _, h => kept_foldl f hf l (hf _ a h)

/-! ## Raises -/

theorem answerStillActive_same (x : Ctx) (pick : HeldClear → Bool) (u : Units) :
    Same u (answerStillActive x pick u) := by
  unfold answerStillActive
  refine Same.trans (b := { u with heldClears := u.heldClears.filter fun h => !pick h }) ⟨rfl, rfl, rfl, fun n l => n l⟩ ?_
  exact (Calm.foldl _ (fun u h => respondHeld_calm x h .stillActive (.refl u)) _ (.refl _)).same

/-- The halt of class A lowers CHAIN_EN and leaves the fault records as they are (R175). -/
theorem haltA_same (x : Ctx) (u : Units) : Same { u with chainEn := false } (haltA x u) := by
  have h : Same { u with chainEn := false } (dropEverything x u) := by
    have k : Calm u (updImage (writePump x false u) imageDriveOff) :=
      updImage_calm _ (writePump_calm _ _ (.refl u))
    exact ⟨rfl, k.2, by rw [← k.4]; rfl, k.9⟩
  exact h.trans (settleGroups_calm x (endRetract_calm x false _ (abortAll_calm x _ (.refl _)))).same

/-- A raise is, but for what Same allows, the record written and, for COACH, CHAIN_EN low (R173, R175, R177). -/
theorem raise_same (x : Ctx) (s : Subject) (k : FaultCode) (d : Detail) (u : Units) :
    Same (afterRaise x.now s k d u) (raise x s k d u) := by
  let r := faultOf u s
  let r' := raisedRecord x.now k d r
  let v := unconfirmFlight s (setFault s r' u)
  let w := if r.state != .active || !r.codes.any (fun e => e.1 == k) then
      offerAll x (.faultRaised s k d r'.count .active) v else v
  let z := answerStillActive x (fun h => h.subject == s || k == .chainEcho) w
  have hw : Same v w := (calm_ite (offerAll_calm x _ (.refl v)) (.refl v)).same
  have hz : Same v z := hw.trans (answerStillActive_same x _ w)
  have hv : Same { u with faults := u.faults.set (subjectIdx s) r' } v :=
    ⟨rfl, rfl, Option.isNone_map, fun n l => n l⟩
  have h := hv.trans hz
  cases s with
  | coach =>
    show Same _ (haltA x z)
    have k := haltA_same x z
    exact ⟨k.1, k.2.trans h.2, k.3.trans h.3, fun n => k.4 (h.4 n)⟩
  | group g => exact h.trans (haltB_calm x g k d (.refl z)).same

theorem stampDrives_same (x : Ctx) (u : Units) : Same u (stampDrives x u) := by
  unfold stampDrives
  exact ⟨rfl, rfl, rfl, fun n l => n l⟩

section
variable {P : Units → Prop} (hP : Kept P)
include hP

theorem raise_kept (x : Ctx) (s : Subject) (k : FaultCode) (d : Detail) {u : Units} (h : P u) : P (raise x s k d u) :=
  hP.same (raise_same x s k d u) (hP.raised _ _ _ _ h)

theorem raiseGroup_kept (x : Ctx) (g : Group) (k : FaultCode) (d : Detail) {u : Units} (h : P u) :
    P (raiseGroup x g k d u) := by
  unfold raiseGroup; split
  · exact raise_kept hP _ _ _ _ h
  · exact h

theorem trackCondition_kept (x : Ctx) (s : Subject) (k : FaultCode) (d : Detail) (c : Bool) {u : Units} (h : P u) :
    P (trackCondition x s k d c u) := by
  unfold trackCondition
  repeat' split
  · exact h
  · exact raise_kept hP _ _ _ _ h
  · exact hP.unmarked _ _ h
  · exact h

theorem raiseTrip_kept (x : Ctx) (k : Fin 33) {u : Units} (h : P u) : P (raiseTrip x k u) := by
  unfold raiseTrip; split
  · exact raise_kept hP _ _ _ _ h
  · exact raiseGroup_kept hP _ _ _ _ h

/-! ## The settlement -/

theorem judgeRoad_kept (x : Ctx) {u : Units} (h : P u) : P (judgeRoad x u) := trackCondition_kept hP _ _ _ _ _ h

theorem advance_kept (x0 : Ctx) (u0 : Units) (x : Ctx) {u : Units} (h : P u) : P (advance x0 u0 x u) := by
  unfold advance; split
  · exact h
  · exact hP.calm (offerAll_calm x _ (.refl _)) (hP.same (u := u) ⟨rfl, rfl, rfl, fun n l => n l⟩ h)

theorem holdChainLow_kept {u : Units} (h : P u) : P (holdChainLow u) := by
  unfold holdChainLow; split
  · exact hP.lowered h
  · exact h

theorem settleUnits_kept (x0 : Ctx) (u0 : Units) (x : Ctx) {u : Units} (h : P u) : P (settleUnits x0 u0 x u) := by
  unfold settleUnits
  refine hP.calm (clearMarks_calm x (settleSteps_calm x settleFuel (judgeRetract_calm x (.refl _)))) ?_
  refine holdChainLow_kept hP (hP.settled (hP.calm (clearMarks_calm x (.refl _)) ?_))
  refine judgeRoad_kept hP x (hP.calm (followAwning_calm x0 u0 x (stopRetract_calm x u0 (.refl _))) ?_)
  refine hP.calm (calm_ite (permitFall_calm x (.refl _)) (.refl _)) ?_
  exact judgeRoad_kept hP x (hP.calm (settleSteps_calm x settleFuel (.refl u)) h)

/-- The units just before the driver chain takes up the event's image change. -/
theorem beforeChain_kept (x0 : Ctx) (u0 : Units) (x : Ctx) {u : Units} (h : P u) :
    P (stampDrives x (advance x0 u0 x (settleClaims x u0 (settleUnits x0 u0 x u)))) := by
  refine hP.same (stampDrives_same x _) ?_
  exact advance_kept hP x0 u0 x (hP.calm (settleClaims_calm x u0 (.refl _)) (settleUnits_kept hP x0 u0 x h))

end

/-- What survives the start and the end of a frame as well. -/
structure Framed (P : Units → Prop) : Prop extends Kept P where
  framed : ∀ {u v}, v.chainEn = u.chainEn → v.faults = u.faults → (noticesBounded u → noticesBounded v) → P u → P v

section
variable {P : Units → Prop} (hP : Framed P)
include hP

theorem chainChange_kept (x : Ctx) (u0 : Units) (due : Bool) {u : Units} (h : P u) : P (chainChange x u0 due u) := by
  unfold chainChange
  dsimp only
  repeat' split
  all_goals first | exact h | exact hP.framed (u := u) rfl rfl (fun n l => n l) h

/-- The settlement keeps what is Framed. -/
theorem finish_kept (x0 : Ctx) (u0 : Units) (due : Bool) (x : Ctx) {u : Units} (h : P u) : P (finish x0 u0 due x u) := by
  unfold finish
  exact chainChange_kept hP x u0 due (beforeChain_kept hP.toKept x0 u0 x h)

end

end Sys2Proof.Laws
end

