-- ==== Sys2Proof/Laws/LineMap.lean ====
section
/-! SUPPORT. The line map at the desk: its lines raise and clear no fault (Calm) and write no port. -/
set_option linter.unusedTactic false
set_option linter.unreachableTactic false
set_option linter.unnecessarySeqFocus false
set_option linter.unusedSimpArgs false
namespace Sys2Proof.Laws
open Sys2Proof.Machine

theorem calm_desk_foldl {α : Type} {w : Units} (f : Desk → α → Desk) (hf : ∀ d a, Calm d.u (f d a).u) :
    ∀ (l : List α) {d : Desk}, Calm w d.u → Calm w (l.foldl f d).u
  | [], _, h => h
  | a :: l, _, h => calm_desk_foldl f hf l (h.trans (hf _ a))

theorem ports_desk_foldl {α : Type} (f : Desk → α → Desk) (hf : ∀ d a, (f d a).c.ports = d.c.ports) :
    ∀ (l : List α) (d : Desk), (l.foldl f d).c.ports = d.c.ports
  | [], _ => rfl
  | a :: l, d => (ports_desk_foldl f hf l _).trans (hf d a)

@[simp] theorem withEntry_ports (c : Setup) (l : Line) (e : MapEntry) : (withEntry c l e).ports = c.ports := by
  unfold withEntry; split <;> rfl

@[simp] theorem writeMap_ports (l : Line) (fs : List MapField) (c : Setup) : (writeMap l fs c).ports = c.ports := by
  unfold writeMap; dsimp only; split <;> simp

@[simp] theorem levelDelivery_calm {w₀ : Units} (m : Measured) (l : Line) {d : Desk} (hw : Calm w₀ d.u) :
    Calm w₀ (levelDelivery m l d).u := by
  unfold levelDelivery
  (try dsimp only)
  (repeat' split) <;> first | exact hw | (simp (maxDischargeDepth := 40) [hw]; done)

@[simp] theorem levelDelivery_ports (m : Measured) (l : Line) (d : Desk) :
    (levelDelivery m l d).c.ports = d.c.ports := by
  unfold levelDelivery
  try dsimp only
  all_goals ((repeat' split) <;> first | rfl | (simp; done))

@[simp] theorem setPark_calm {w₀ : Units} (m : Measured) (active : Bool) {d : Desk} (hw : Calm w₀ d.u) :
    Calm w₀ (setPark m active d).u := by
  unfold setPark
  (try dsimp only)
  (repeat' split) <;> first | exact hw | (simp (maxDischargeDepth := 40) [hw]; done)

@[simp] theorem setPark_ports (m : Measured) (active : Bool) (d : Desk) :
    (setPark m active d).c.ports = d.c.ports := by
  unfold setPark
  try dsimp only
  all_goals ((repeat' split) <;> first | rfl | (simp; done))

@[simp] theorem setIgn_calm {w₀ : Units} (m : Measured) (active : Bool) {d : Desk} (hw : Calm w₀ d.u) :
    Calm w₀ (setIgn m active d).u := by
  unfold setIgn
  (try dsimp only)
  (repeat' split) <;> first | exact hw | (simp (maxDischargeDepth := 40) [hw]; done)

@[simp] theorem setIgn_ports (m : Measured) (active : Bool) (d : Desk) :
    (setIgn m active d).c.ports = d.c.ports := by
  unfold setIgn
  try dsimp only
  all_goals ((repeat' split) <;> first | rfl | (simp; done))

@[simp] theorem activate_calm {w₀ : Units} (m : Measured) (l : Line) {d : Desk} (hw : Calm w₀ d.u) :
    Calm w₀ (activate m l d).u := by
  unfold activate
  (try dsimp only)
  (repeat' split) <;> first | exact hw | (simp (maxDischargeDepth := 40) [hw]; done)

@[simp] theorem activate_ports (m : Measured) (l : Line) (d : Desk) :
    (activate m l d).c.ports = d.c.ports := by
  unfold activate
  try dsimp only
  all_goals ((repeat' split) <;> first | rfl | (simp; done))

@[simp] theorem deactivate_calm {w₀ : Units} (m : Measured) (l : Line) {d : Desk} (hw : Calm w₀ d.u) :
    Calm w₀ (deactivate m l d).u := by
  unfold deactivate
  (try dsimp only)
  (repeat' split) <;> first | exact hw | (simp (maxDischargeDepth := 40) [hw]; done)

@[simp] theorem deactivate_ports (m : Measured) (l : Line) (d : Desk) :
    (deactivate m l d).c.ports = d.c.ports := by
  unfold deactivate
  try dsimp only
  all_goals ((repeat' split) <;> first | rfl | (simp; done))

@[simp] theorem writeVirtual_calm {w₀ : Units} (n : Fin 8) (value : Bool) (writer : Option Link) (deadline : Option CoachTime) {d : Desk} (hw : Calm w₀ d.u) :
    Calm w₀ (writeVirtual n value writer deadline d).u := by
  unfold writeVirtual
  (try dsimp only)
  (repeat' split) <;> first | exact hw | (simp (maxDischargeDepth := 40) [hw]; done)

@[simp] theorem writeVirtual_ports (n : Fin 8) (value : Bool) (writer : Option Link) (deadline : Option CoachTime) (d : Desk) :
    (writeVirtual n value writer deadline d).c.ports = d.c.ports := by
  unfold writeVirtual
  try dsimp only
  all_goals ((repeat' split) <;> first | rfl | (simp; done))

@[simp] theorem dropVirtual_calm {w₀ : Units} (m : Measured) (n : Fin 8) {d : Desk} (hw : Calm w₀ d.u) :
    Calm w₀ (dropVirtual m n d).u := by
  unfold dropVirtual
  (try dsimp only)
  (repeat' split) <;> first | exact hw | (simp (maxDischargeDepth := 40) [hw]; done)

@[simp] theorem dropVirtual_ports (m : Measured) (n : Fin 8) (d : Desk) :
    (dropVirtual m n d).c.ports = d.c.ports := by
  unfold dropVirtual
  try dsimp only
  all_goals ((repeat' split) <;> first | rfl | (simp; done))

@[simp] theorem setVirtual_calm {w₀ : Units} (m : Measured) (l : Link) (n : Fin 8) (v : Bool) {d : Desk} (hw : Calm w₀ d.u) :
    Calm w₀ (setVirtual m l n v d).u := by
  unfold setVirtual
  (try dsimp only)
  (repeat' split) <;> first | exact hw | (simp (maxDischargeDepth := 40) [hw]; done)

@[simp] theorem setVirtual_ports (m : Measured) (l : Link) (n : Fin 8) (v : Bool) (d : Desk) :
    (setVirtual m l n v d).c.ports = d.c.ports := by
  unfold setVirtual
  try dsimp only
  all_goals ((repeat' split) <;> first | rfl | (simp; done))

@[simp] theorem setLevel_calm {w₀ : Units} (m : Measured) (n : Fin 16) (v : Level) {d : Desk} (hw : Calm w₀ d.u) :
    Calm w₀ (setLevel m n v d).u := by
  unfold setLevel
  (try dsimp only)
  (repeat' split) <;> first | exact hw | (simp (maxDischargeDepth := 40) [hw]; done)

@[simp] theorem setLevel_ports (m : Measured) (n : Fin 16) (v : Level) (d : Desk) :
    (setLevel m n v d).c.ports = d.c.ports := by
  unfold setLevel
  try dsimp only
  all_goals ((repeat' split) <;> first | rfl | (simp; done))

@[simp] theorem silenceVirtual_calm {w₀ : Units} (m : Measured) (l : Link) {d : Desk} (hw : Calm w₀ d.u) :
    Calm w₀ (silenceVirtual m l d).u := by
  unfold silenceVirtual
  exact calm_desk_foldl _ (fun e i => by split <;> simp) _ hw

@[simp] theorem silenceVirtual_ports (m : Measured) (l : Link) (d : Desk) :
    (silenceVirtual m l d).c.ports = d.c.ports := by
  unfold silenceVirtual
  exact ports_desk_foldl _ (fun e i => by split <;> simp) _ d

@[simp] theorem linesSet_calm {w₀ : Units} (m : Measured) (l : Link) (sel : List (Line × Bool)) {d : Desk} (hw : Calm w₀ d.u) :
    Calm w₀ (linesSet m l sel d).1.u := by
  unfold linesSet
  repeat' split
  · exact hw
  · exact hw
  · exact hw
  · exact calm_desk_foldl _ (fun e i => by split <;> simp) _ hw

@[simp] theorem linesSet_ports (m : Measured) (l : Link) (sel : List (Line × Bool)) (d : Desk) :
    (linesSet m l sel d).1.c.ports = d.c.ports := by
  unfold linesSet
  repeat' split
  · rfl
  · rfl
  · rfl
  · exact ports_desk_foldl _ (fun e i => by split <;> simp) _ d

@[simp] theorem applyDebounce_calm {w₀ : Units} (m : Measured) (l : Line) {d : Desk} (hw : Calm w₀ d.u) :
    Calm w₀ (applyDebounce m l d).u := by
  unfold applyDebounce
  (try dsimp only)
  (repeat' split) <;> first | exact hw | (simp (maxDischargeDepth := 40) [hw]; done)

@[simp] theorem applyDebounce_ports (m : Measured) (l : Line) (d : Desk) :
    (applyDebounce m l d).c.ports = d.c.ports := by
  unfold applyDebounce
  try dsimp only
  all_goals ((repeat' split) <;> first | rfl | (simp; done))

@[simp] theorem mapWrite_calm {w₀ : Units} (m : Measured) (l : Line) (fs : List MapField) {d : Desk} (hw : Calm w₀ d.u) :
    Calm w₀ (mapWrite m l fs d).1.u := by
  unfold mapWrite
  (try dsimp only)
  (repeat' split) <;> first | exact hw | (simp (maxDischargeDepth := 40) [hw]; done)

@[simp] theorem mapWrite_ports (m : Measured) (l : Line) (fs : List MapField) (d : Desk) :
    (mapWrite m l fs d).1.c.ports = d.c.ports := by
  unfold mapWrite
  try dsimp only
  all_goals ((repeat' split) <;> first | rfl | (simp; done))

@[simp] theorem setTiming_calm {w₀ : Units} (n : Fin 16) (t : Option CoachTime) {d : Desk} (hw : Calm w₀ d.u) :
    Calm w₀ (setTiming n t d).u := by
  unfold setTiming
  (try dsimp only)
  (repeat' split) <;> first | exact hw | (simp (maxDischargeDepth := 40) [hw]; done)

@[simp] theorem setTiming_ports (n : Fin 16) (t : Option CoachTime) (d : Desk) :
    (setTiming n t d).c.ports = d.c.ports := by
  unfold setTiming
  try dsimp only
  all_goals ((repeat' split) <;> first | rfl | (simp; done))

@[simp] theorem showLevel_calm {w₀ : Units} (m : Measured) (n : Fin 16) (v : Level) (since : CoachTime) {d : Desk} (hw : Calm w₀ d.u) :
    Calm w₀ (showLevel m n v since d).u := by
  unfold showLevel
  (try dsimp only)
  (repeat' split) <;> first | exact hw | (simp (maxDischargeDepth := 40) [hw]; done)

@[simp] theorem showLevel_ports (m : Measured) (n : Fin 16) (v : Level) (since : CoachTime) (d : Desk) :
    (showLevel m n v since d).c.ports = d.c.ports := by
  unfold showLevel
  try dsimp only
  all_goals ((repeat' split) <;> first | rfl | (simp; done))

end Sys2Proof.Laws
end

