-- ==== Sys2Proof/Laws/Requests.lean ====
section
/-! SUPPORT. What deciding a request keeps: everything Kept, and the receivers' and transmitters' part of every port. -/
namespace Sys2Proof.Laws
open Sys2Proof.Machine

/-- The part of a port that no decision writes: link state, receive queue, partial frame, frame being sent. -/
structure SamePort (p q : PortIn) : Prop where
  linked : q.linked = p.linked
  silence : q.silence = p.silence
  rx : q.rx = p.rx
  part : q.part = p.part
  sending : q.sending = p.sending

theorem SamePort.refl (p : PortIn) : SamePort p p := ⟨rfl, rfl, rfl, rfl, rfl⟩

/-- The receivers' and transmitters' part of every port is the same in two setups. -/
def SamePorts (c e : Setup) : Prop := ∀ l : Link, SamePort c.ports[linkIdx l] e.ports[linkIdx l]

theorem SamePorts.of_eq {c e : Setup} (h : e.ports = c.ports) : SamePorts c e := fun _ => h ▸ .refl _

/-- One port read after a port was written. -/
theorem updPort_read (c : Setup) (l k : Link) (f : PortIn → PortIn) :
    (updPort c l f).ports[linkIdx k] = if k = l then f c.ports[linkIdx l] else c.ports[linkIdx k] := by
  by_cases h : k = l
  · subst h; simp [updPort]
  · have : (linkIdx l).val ≠ (linkIdx k).val := fun e => h (linkIdx_inj (Fin.ext e)).symm
    simp [updPort, this, h]

/-- One port's outgoing part read after one was written. -/
theorem updOut_read (u : Units) (l k : Link) (f : PortOut → PortOut) :
    (updOut u l f).out[linkIdx k] = if k = l then f u.out[linkIdx l] else u.out[linkIdx k] := by
  by_cases h : k = l
  · subst h; simp [updOut]
  · have : (linkIdx l).val ≠ (linkIdx k).val := fun e => h (linkIdx_inj (Fin.ext e)).symm
    simp [updOut, this, h]

theorem updPort_same (c : Setup) (l : Link) (f : PortIn → PortIn) (h : SamePort c.ports[linkIdx l] (f c.ports[linkIdx l])) :
    SamePorts c (updPort c l f) := by
  intro k
  rw [updPort_read]
  split
  · next e => subst e; exact h
  · exact .refl _

theorem profileStage_same (m : Measured) (l : Link) (sec : Section) (es : List (Nat × Int)) (c : Setup) :
    SamePorts c (profileStage m l sec es c).1 := by
  unfold profileStage; repeat' split
  all_goals exact .of_eq rfl

theorem profileAbandon_same (m : Measured) (l : Link) (c : Setup) : SamePorts c (profileAbandon m l c).1 := by
  unfold profileAbandon; repeat' split
  all_goals exact .of_eq rfl

theorem attentionSet_same (l : Link) (v : Nat) (c : Setup) : SamePorts c (attentionSet l v c).1 := by
  unfold attentionSet; split
  · exact updPort_same _ _ _ ⟨rfl, rfl, rfl, rfl, rfl⟩
  · exact .of_eq rfl

theorem profileCommit_same (m : Measured) (l : Link) (d : Desk) : SamePorts d.c (profileCommit m l d).1.c := by
  unfold profileCommit; split
  · exact .of_eq rfl
  split
  · split <;> exact .of_eq rfl
  · exact .of_eq rfl

/-- A decision leaves the receivers' and transmitters' part of every port as it was. -/
theorem decideRequest_ports (m : Measured) (l : Link) (tag : Byte) (q : Request) (d : Desk) :
    SamePorts d.c (decideRequest m l tag q d).1.c := by
  unfold decideRequest
  cases q
  case linkStatus => exact updPort_same _ _ _ ⟨rfl, rfl, rfl, rfl, rfl⟩
  case profileStage => exact profileStage_same _ _ _ _ _
  case profileCommit => exact profileCommit_same _ _ _
  case profileAbandon => exact profileAbandon_same _ _ _
  case attentionSet => exact attentionSet_same _ _ _
  case linesSet => exact .of_eq (linesSet_ports _ _ _ _)
  case mapWrite => exact .of_eq (mapWrite_ports _ _ _ _)
  all_goals exact .of_eq rfl

section
variable {P : Units → Prop} (hP : Kept P)
include hP

theorem commitTrips_kept (x : Ctx) {u : Units} (h : P u) : P (commitTrips x u) := by
  unfold commitTrips
  refine kept_foldl _ (fun v g hv => ?_) _ h
  split
  · exact raiseGroup_kept hP _ _ _ _ hv
  · exact hv

theorem profileCommit_kept (m : Measured) (l : Link) {d : Desk} (h : P d.u) : P (profileCommit m l d).1.u := by
  unfold profileCommit; split
  · exact h
  split
  · exact h
  · exact commitTrips_kept hP _ (hP.same (u := d.u) ⟨rfl, rfl, rfl, fun n l => n l⟩ h)

theorem faultClear_kept (x : Ctx) (l : Link) (tag : Byte) (s : Subject) {u : Units} (h : P u) :
    P (faultClear x l tag s u).1 := by
  unfold faultClear
  repeat' split
  all_goals first | exact h | exact hP.same (u := u) ⟨rfl, rfl, rfl, fun n l => n l⟩ h

/-- A decision keeps what is Kept. -/
theorem decideRequest_kept (m : Measured) (l : Link) (tag : Byte) (q : Request) {d : Desk} (h : P d.u) :
    P (decideRequest m l tag q d).1.u := by
  unfold decideRequest
  cases q
  case claim => exact hP.calm (claimRequest_calm _ _ _ _ _ _ (.refl _)) h
  case release => exact hP.calm (releaseRequest_calm _ _ _ (.refl _)) h
  case roomMove => exact hP.calm (roomMove_calm _ _ _ _ _ _ _ (.refl _)) h
  case roomStop => exact hP.calm (roomStop_calm _ _ (.refl _)) h
  case jackAuto => exact hP.calm (jackRequest_calm _ _ _ _ (.refl _)) h
  case jackSeek => exact hP.calm (jackRequest_calm _ _ _ _ (.refl _)) h
  case jackJog => exact hP.calm (jackRequest_calm _ _ _ _ (.refl _)) h
  case jackRetract => exact hP.calm (jackRequest_calm _ _ _ _ (.refl _)) h
  case jackStop => exact hP.calm (jackStop_calm _ (.refl _)) h
  case awningMove => exact hP.calm (awningMove_calm _ _ _ _ _ _ (.refl _)) h
  case awningStop => exact hP.calm (awningStop_calm _ (.refl _)) h
  case stopAll => exact hP.calm (stopAll_calm _ (.refl _)) h
  case holdRefresh => exact hP.calm (holdRefresh_calm _ _ _ (.refl _)) h
  case linesSet => exact hP.calm (linesSet_calm _ _ _ (.refl _)) h
  case mapWrite => exact hP.calm (mapWrite_calm _ _ _ (.refl _)) h
  case profileCommit => exact profileCommit_kept hP _ _ h
  case faultClear => exact faultClear_kept hP _ _ _ _ h
  all_goals exact h

end

end Sys2Proof.Laws
end

