-- ==== Sys2Proof/Laws/Ports.lean ====
section
/-! SUPPORT. The transmitters: what one port does when it may start a frame (`tx`), what all three do (`sendAll`), and
that serving the ports is no more than that while no request waits. -/
namespace Sys2Proof.Laws
open Sys2Proof.Machine Sys2Proof.Safety

/-- One port after it was asked to start a frame (R190). -/
def tx (m : Measured) (g : Generation) (p : PortIn) (o : PortOut) : PortIn × PortOut :=
  if p.sending.isSome then (p, o)
  else match o.line, o.notices with
    | r :: rest, _ => ({ p with sending := some (segmentFrame r) }, { o with line := lineAfterSegment r rest })
    | [], n :: rest => ({ p with sending := some (noticeFrame m.now g n) }, afterDeparture m.now rest o)
    | [], [] => (p, o)

/-- One port and its outgoing part written at a desk. -/
def putPort (l : Link) (p : PortIn × PortOut) (d : Desk) : Desk :=
  { c := updPort d.c l fun _ => p.1, u := updOut d.u l fun _ => p.2 }

/-- A port's two parts read at a desk. -/
def getPort (l : Link) (d : Desk) : PortIn × PortOut := (d.c.ports[linkIdx l], d.u.out[linkIdx l])

theorem putPort_getPort (l : Link) (d : Desk) : putPort l (getPort l d) d = d := by
  simp [putPort, getPort, updPort, updOut]

theorem getPort_putPort (l k : Link) (p : PortIn × PortOut) (d : Desk) :
    getPort k (putPort l p d) = if k = l then p else getPort k d := by
  unfold getPort putPort
  simp only [updPort_read, updOut_read]
  split <;> rfl

theorem putPort_putPort (l : Link) (p q : PortIn × PortOut) (d : Desk) : putPort l p (putPort l q d) = putPort l p d := by
  simp [putPort, updPort, updOut]

theorem putPort_comm {l k : Link} (h : l ≠ k) (p q : PortIn × PortOut) (d : Desk) :
    putPort l p (putPort k q d) = putPort k q (putPort l p d) := by
  have hn : (linkIdx l).val ≠ (linkIdx k).val := fun e => h (linkIdx_inj (Fin.ext e))
  simp only [putPort, updPort, updOut, Desk.mk.injEq]
  rw [Vector.set_comm _ _ hn, Vector.set_comm _ _ hn]
  exact ⟨rfl, rfl⟩

/-- The transmitter of one port, in terms of that port alone. -/
theorem transmit_eq (m : Measured) (l : Link) (d : Desk) :
    transmit m l d = putPort l (tx m d.u.generation d.c.ports[linkIdx l] d.u.out[linkIdx l]) d := by
  unfold transmit tx
  split
  · exact (putPort_getPort l d).symm
  cases d.u.out[linkIdx l].line with
  | cons => rfl
  | nil =>
    cases d.u.out[linkIdx l].notices with
    | cons => rfl
    | nil => exact (putPort_getPort l d).symm

theorem tx_idem (m : Measured) (g : Generation) (p : PortIn) (o : PortOut) :
    tx m g (tx m g p o).1 (tx m g p o).2 = tx m g p o := by
  by_cases hs : p.sending.isSome
  · have h : tx m g p o = (p, o) := by simp [tx, hs]
    rw [h]; exact h
  · cases hl : o.line with
    | cons r rest =>
      have h : tx m g p o = ({ p with sending := some (segmentFrame r) }, { o with line := lineAfterSegment r rest }) := by
        simp [tx, hs, hl]
      rw [h]; simp [tx]
    | nil =>
      cases hn : o.notices with
      | cons n rest =>
        have h : tx m g p o = ({ p with sending := some (noticeFrame m.now g n) }, afterDeparture m.now rest o) := by
          simp [tx, hs, hl, hn]
        rw [h]; simp [tx]
      | nil =>
        have h : tx m g p o = (p, o) := by simp [tx, hs, hl, hn]
        rw [h]; exact h

/-- After `tx` a port either sends or has nothing to send. -/
theorem tx_settled (m : Measured) (g : Generation) (p : PortIn) (o : PortOut) :
    (tx m g p o).1.sending = none → (tx m g p o).2.line = [] ∧ (tx m g p o).2.notices = [] := by
  unfold tx
  split
  · next h =>
    intro k
    rw [show p.sending = none from k] at h
    cases h
  split <;> intro h
  · cases h
  · cases h
  · next h1 h2 => exact ⟨h1, h2⟩

theorem tx_of_settled (m : Measured) (g : Generation) (p : PortIn) (o : PortOut)
    (h : p.sending = none → o.line = [] ∧ o.notices = []) : tx m g p o = (p, o) := by
  unfold tx
  split
  · rfl
  · next k =>
    have ⟨h1, h2⟩ := h (by simpa using k)
    simp [h1, h2]

theorem tx_same (m : Measured) (g : Generation) (p : PortIn) (o : PortOut) : (tx m g p o).1 = { p with sending := (tx m g p o).1.sending } := by
  unfold tx
  split
  · rfl
  split <;> rfl

theorem putPort_generation (l : Link) (p : PortIn × PortOut) (d : Desk) : (putPort l p d).u.generation = d.u.generation := rfl

/-- All three transmitters in terms of the three ports. -/
theorem sendAll_eq (m : Measured) (d : Desk) :
    sendAll m d = putPort .ml2 (tx m d.u.generation (getPort .ml2 d).1 (getPort .ml2 d).2)
      (putPort .ml1 (tx m d.u.generation (getPort .ml1 d).1 (getPort .ml1 d).2)
        (putPort .ml0 (tx m d.u.generation (getPort .ml0 d).1 (getPort .ml0 d).2) d)) := by
  have h (l : Link) (d : Desk) : transmit m l d = putPort l (tx m d.u.generation (getPort l d).1 (getPort l d).2) d :=
    transmit_eq m l d
  simp only [sendAll, allLinks, List.foldl, h, putPort_generation, getPort_putPort, reduceCtorEq, if_false]

/-- One port after all three transmitters were asked. -/
theorem getPort_sendAll (m : Measured) (l : Link) (d : Desk) :
    getPort l (sendAll m d) = tx m d.u.generation d.c.ports[linkIdx l] d.u.out[linkIdx l] := by
  rw [sendAll_eq]
  cases l <;> simp only [getPort_putPort, reduceCtorEq, if_false, if_true] <;> rfl

theorem sendAll_settled (m : Measured) (d : Desk) : deskSettled (sendAll m d) := by
  intro l
  have h := getPort_sendAll m l d
  have h1 : (sendAll m d).c.ports[linkIdx l] = _ := congrArg Prod.fst h
  have h2 : (sendAll m d).u.out[linkIdx l] = _ := congrArg Prod.snd h
  rw [h1, h2]
  exact tx_settled _ _ _ _

theorem transmit_of_settled (m : Measured) (l : Link) {d : Desk} (h : deskSettled d) : transmit m l d = d := by
  rw [transmit_eq, tx_of_settled _ _ _ _ (h l)]
  exact putPort_getPort l d

theorem sendAll_of_settled (m : Measured) {d : Desk} (h : deskSettled d) : sendAll m d = d := by
  simp [sendAll, allLinks, transmit_of_settled m _ h]

theorem sendAll_idem (m : Measured) (d : Desk) : sendAll m (sendAll m d) = sendAll m d :=
  sendAll_of_settled m (sendAll_settled m d)

/-- What the transmitters leave alone: the receive queues and everything of the units but the ports' outgoing parts. -/
theorem transmit_rx (m : Measured) (l k : Link) (d : Desk) :
    ((transmit m l d).c.ports[linkIdx k]).rx = (d.c.ports[linkIdx k]).rx := by
  rw [transmit_eq]
  simp only [putPort, updPort_read]
  split
  · next e => subst e; rw [tx_same]
  · rfl

theorem sendAll_rx (m : Measured) (k : Link) (d : Desk) :
    ((sendAll m d).c.ports[linkIdx k]).rx = (d.c.ports[linkIdx k]).rx := by
  simp only [sendAll, allLinks, List.foldl, transmit_rx]

theorem transmit_same_units (m : Measured) (l : Link) (d : Desk) : (transmit m l d).u = { d.u with out := (transmit m l d).u.out } := by
  rw [transmit_eq]; rfl

/-- A transmission asked again at any port changes nothing once all were asked. -/
theorem sendAll_absorb (m : Measured) (l : Link) (d : Desk) : sendAll m (transmit m l d) = sendAll m d := by
  have hl := transmit_eq m l d
  have hg : (transmit m l d).u.generation = d.u.generation := by rw [hl]; rfl
  have hp (k : Link) : getPort k (transmit m l d) = if k = l then tx m d.u.generation (getPort l d).1 (getPort l d).2 else getPort k d := by
    rw [hl]; exact getPort_putPort l k _ d
  rw [sendAll_eq, sendAll_eq, hg, hp, hp, hp, hl]
  cases l
  · simp only [if_true, reduceCtorEq, if_false, tx_idem, putPort_putPort, getPort]
  · simp only [if_true, reduceCtorEq, if_false, tx_idem, getPort]
    rw [putPort_comm (l := .ml0) (k := .ml1) (by decide), putPort_putPort]
  · simp only [if_true, reduceCtorEq, if_false, tx_idem, getPort]
    rw [putPort_comm (l := .ml0) (k := .ml2) (by decide), putPort_comm (l := .ml1) (k := .ml2) (by decide), putPort_putPort]

end Sys2Proof.Laws
end

