-- ==== Sys2Proof/Laws/Events.lean ====
section
/-! SUPPORT. What serving the ports and a whole event do: with no request waiting the transmitters are all that acts; one
request alone is decided and then the transmitters act; what is Kept survives; no receive queue grows; the ports end
settled. -/
namespace Sys2Proof.Laws
open Sys2Proof.Machine Sys2Proof.Safety

/-! ## Nothing waits -/

theorem takes_empty {d : Desk} {l : Link} (h : (d.c.ports[linkIdx l]).rx = []) : takes d l = false := by
  unfold takes; rw [h]; rfl

theorem servePort_quiet (m : Measured) {d : Desk} {l : Link} (h : (d.c.ports[linkIdx l]).rx = []) :
    servePort m d l = transmit m l d := by
  unfold servePort; rw [takes_empty h]; rfl

theorem round_quiet (m : Measured) {d : Desk} (h : noRequestWaits d.c) : allLinks.foldl (servePort m) d = sendAll m d := by
  have h1 (k : Link) : ((transmit m .ml0 d).c.ports[linkIdx k]).rx = [] := (transmit_rx m _ k d).trans (h k)
  have h2 (k : Link) : ((transmit m .ml1 (transmit m .ml0 d)).c.ports[linkIdx k]).rx = [] := (transmit_rx m _ k _).trans (h1 k)
  simp only [allLinks, sendAll, List.foldl]
  rw [servePort_quiet m (h .ml0), servePort_quiet m (h1 .ml1), servePort_quiet m (h2 .ml2)]

theorem noRequestWaits_sendAll (m : Measured) {d : Desk} (h : noRequestWaits d.c) : noRequestWaits (sendAll m d).c :=
  fun k => (sendAll_rx m k d).trans (h k)

theorem rounds_quiet (m : Measured) : ∀ (n : Nat) {d : Desk}, noRequestWaits d.c →
    sendAll m (serveRounds m n d) = sendAll m d
  | 0, _, _ => rfl
  | n + 1, d, h => by
    unfold serveRounds
    rw [round_quiet m h, rounds_quiet m n (noRequestWaits_sendAll m h), sendAll_idem]

/-- With no request waiting, serving the ports is asking the three transmitters (R190). -/
theorem servePorts_quiet (m : Measured) {d : Desk} (h : noRequestWaits d.c) : servePorts m d = sendAll m d :=
  rounds_quiet m _ h

/-! ## One request alone -/

theorem takeHead_cons (m : Measured) (l : Link) (q : QueuedRequest) (rest : List QueuedRequest) {d : Desk}
    (h : (d.c.ports[linkIdx l]).rx = q :: rest) :
    takeHead m l d = decideTaken m l q { d with c := updPort d.c l fun p => { p with rx := rest } } := by
  unfold takeHead; rw [h]

/-- The setup part a decision leaves is the one its request's rule leaves. -/
theorem decideTaken_ports (m : Measured) (l : Link) (q : QueuedRequest) (d : Desk) : SamePorts d.c (decideTaken m l q d).c :=
  decideRequest_ports m l q.tag q.req d

/-- The rounds with one request that waits alone and may be taken: it is decided, and then the transmitters start what
is to be sent (R189, R190). -/
theorem rounds_one (m : Measured) (l : Link) (q : QueuedRequest) (n : Nat) {d : Desk} (hs : deskSettled d)
    (hq : (d.c.ports[linkIdx l]).rx = [q]) (ho : ∀ k, k ≠ l → (d.c.ports[linkIdx k]).rx = []) (ht : takes d l = true) :
    sendAll m (serveRounds m (n + 1) d)
      = sendAll m (decideTaken m l q { d with c := updPort d.c l fun p => { p with rx := [] } }) := by
  let e := decideTaken m l q { d with c := updPort d.c l fun p => { p with rx := [] } }
  have he : noRequestWaits e.c := by
    intro k
    refine ((decideTaken_ports m l q _ k).rx).trans ?_
    simp only [updPort_read]
    split
    · rfl
    · next h => exact ho k h
  have hl : servePort m d l = transmit m l e := by
    unfold servePort
    rw [if_pos ht, takeHead_cons m l q [] hq]
  have hk (k : Link) (h : k ≠ l) : servePort m d k = d := by
    rw [servePort_quiet m (ho k h), transmit_of_settled m k hs]
  have hn (i : Link) : noRequestWaits (transmit m i e).c := fun k => (transmit_rx m i k e).trans (he k)
  have hn2 (i j : Link) : noRequestWaits (transmit m i (transmit m j e)).c := fun k => (transmit_rx m i k _).trans (hn j k)
  unfold serveRounds
  cases l
  · simp only [allLinks, List.foldl, hl]
    rw [servePort_quiet m (hn _ .ml1), servePort_quiet m (hn2 _ _ .ml2), rounds_quiet m n
      (fun k => (transmit_rx m _ k _).trans (hn2 _ _ k)), sendAll_absorb, sendAll_absorb, sendAll_absorb]
  · simp only [allLinks, List.foldl, hk .ml0 (by decide), hl]
    rw [servePort_quiet m (hn _ .ml2), rounds_quiet m n (hn2 _ _), sendAll_absorb, sendAll_absorb]
  · simp only [allLinks, List.foldl, hk .ml0 (by decide), hk .ml1 (by decide), hl]
    rw [rounds_quiet m n (hn _), sendAll_absorb]

/-- Serving the ports with one request that waits alone: three rounds, and the transmitters once more. -/
theorem servePorts_alone (m : Measured) (l : Link) (q : QueuedRequest) {d : Desk}
    (hq : (d.c.ports[linkIdx l]).rx = [q]) (ho : ∀ k, k ≠ l → (d.c.ports[linkIdx k]).rx = []) :
    servePorts m d = sendAll m (serveRounds m 3 d) := by
  have hw : requestsWaiting d.c = 1 := by
    cases l
    · simp only [requestsWaiting, allLinks, List.map, hq, ho .ml1 (by decide), ho .ml2 (by decide)]; rfl
    · simp only [requestsWaiting, allLinks, List.map, hq, ho .ml0 (by decide), ho .ml2 (by decide)]; rfl
    · simp only [requestsWaiting, allLinks, List.map, hq, ho .ml0 (by decide), ho .ml1 (by decide)]; rfl
  unfold servePorts
  rw [hw]
  rfl

/-- One request that waits alone and may be taken is decided, and then the transmitters start what is to be sent
(R189, R190). -/
theorem servePorts_one (m : Measured) (l : Link) (q : QueuedRequest) {d : Desk} (hs : deskSettled d)
    (hq : (d.c.ports[linkIdx l]).rx = [q]) (ho : ∀ k, k ≠ l → (d.c.ports[linkIdx k]).rx = []) (ht : takes d l = true) :
    servePorts m d
      = sendAll m (decideTaken m l q { d with c := updPort d.c l fun p => { p with rx := [] } }) :=
  (servePorts_alone m l q hq ho).trans (rounds_one m l q 2 hs hq ho ht)

/-! ## What serving keeps -/

/-- The receive queues of a desk are no longer than another's. -/
def RxLe (d e : Desk) : Prop := ∀ k : Link, (e.c.ports[linkIdx k]).rx.length ≤ (d.c.ports[linkIdx k]).rx.length

theorem RxLe.refl (d : Desk) : RxLe d d := fun _ => Nat.le_refl _
theorem RxLe.trans {a b c : Desk} (h : RxLe a b) (k : RxLe b c) : RxLe a c := fun l => (k l).trans (h l)

theorem transmit_rxLe (m : Measured) (l : Link) (d : Desk) : RxLe d (transmit m l d) := fun k => by rw [transmit_rx]

theorem takeHead_rxLe (m : Measured) (l : Link) (d : Desk) : RxLe d (takeHead m l d) := by
  intro k
  cases h : (d.c.ports[linkIdx l]).rx with
  | nil => unfold takeHead; rw [h]
  | cons q rest =>
    rw [takeHead_cons m l q rest h, (decideTaken_ports m l q _ k).rx]
    simp only [updPort_read]
    split
    · next e => subst e; rw [h]; exact Nat.le_succ _
    · exact Nat.le_refl _

theorem servePort_rxLe (m : Measured) (d : Desk) (l : Link) : RxLe d (servePort m d l) := by
  unfold servePort
  split
  · exact (takeHead_rxLe m l d).trans (transmit_rxLe m l _)
  · exact transmit_rxLe m l d

theorem foldl_rxLe {α : Type} (f : Desk → α → Desk) (hf : ∀ d a, RxLe d (f d a)) : ∀ (l : List α) (d : Desk), RxLe d (l.foldl f d)
  | [], d => .refl d
  | a :: l, d => (hf d a).trans (foldl_rxLe f hf l _)

theorem serveRounds_rxLe (m : Measured) : ∀ (n : Nat) (d : Desk), RxLe d (serveRounds m n d)
  | 0, d => .refl d
  | n + 1, d => (foldl_rxLe _ (servePort_rxLe m) _ d).trans (serveRounds_rxLe m n _)

theorem servePorts_rxLe (m : Measured) (d : Desk) : RxLe d (servePorts m d) :=
  (serveRounds_rxLe m _ d).trans (foldl_rxLe _ (fun d l => transmit_rxLe m l d) _ _)

theorem servePorts_settled (m : Measured) (d : Desk) : deskSettled (servePorts m d) := sendAll_settled m _

theorem desk_u (s : State) : s.desk.u = s.u := rfl
theorem desk_c (s : State) : s.desk.c = s.c := rfl

/-- The desk an event leaves. -/
theorem settleEvent_desk (s : State) (m : Measured) (d : Desk) (due : Bool) :
    (settleEvent s m d due).desk = servePorts m { c := d.c, u := finish s.ctx s.u due (d.ctx m) d.u } := by
  simp only [settleEvent, State.desk]

theorem desk_foldl_kept {P : Units → Prop} {α : Type} (f : Desk → α → Desk) (hf : ∀ d a, P d.u → P (f d a).u) :
    ∀ (l : List α) {d : Desk}, P d.u → P (l.foldl f d).u
  | [], _, h => h
  | a :: l, _, h => desk_foldl_kept f hf l (hf _ a h)

section
variable {P : Units → Prop} (hP : Framed P)
include hP

theorem transmit_kept (m : Measured) (l : Link) {d : Desk} (h : P d.u) : P (transmit m l d).u := by
  unfold transmit
  split
  · exact h
  split
  · exact hP.toKept.calm (u := d.u) (updOut_calm (f := fun p => { p with line := lineAfterSegment _ _ }) (.refl _) fun _ k => k) h
  · next n rest _ hn =>
    refine hP.same (u := d.u) ⟨rfl, rfl, rfl, fun b => updOut_bounded b fun hb => ?_⟩ h
    rw [hn] at hb
    unfold afterDeparture
    split
    · simpa using hb
    · exact Nat.le_of_succ_le hb
  · exact h

theorem decideTaken_kept (m : Measured) (l : Link) (q : QueuedRequest) {d : Desk} (h : P d.u) : P (decideTaken m l q d).u := by
  have k := decideRequest_kept hP.toKept m l q.tag q.req h
  unfold decideTaken
  dsimp only
  split
  · exact finish_kept hP _ _ _ _ (hP.toKept.calm (respond_calm _ _ _ _ _ (.refl _)) k)
  · exact finish_kept hP _ _ _ _ k

theorem takeHead_kept (m : Measured) (l : Link) {d : Desk} (h : P d.u) : P (takeHead m l d).u := by
  unfold takeHead
  split
  · exact h
  · exact decideTaken_kept hP m l _ h

theorem servePort_kept (m : Measured) (l : Link) {d : Desk} (h : P d.u) : P (servePort m d l).u := by
  unfold servePort
  split
  · exact transmit_kept hP m l (takeHead_kept hP m l h)
  · exact transmit_kept hP m l h

theorem serveRounds_kept (m : Measured) : ∀ (n : Nat) {d : Desk}, P d.u → P (serveRounds m n d).u
  | 0, _, h => h
  | n + 1, _, h => serveRounds_kept m n (desk_foldl_kept _ (fun _ l => servePort_kept hP m l) allLinks h)

theorem servePorts_kept (m : Measured) {d : Desk} (h : P d.u) : P (servePorts m d).u :=
  desk_foldl_kept _ (fun _ l => transmit_kept hP m l) allLinks (serveRounds_kept hP m _ h)

/-- An event keeps what is Kept and its command kept. -/
theorem settleEvent_kept (s : State) (m : Measured) {d : Desk} (due : Bool) (h : P d.u) : P (settleEvent s m d due).u := by
  rw [← desk_u, settleEvent_desk]
  exact servePorts_kept hP m (finish_kept hP _ _ _ _ h)

theorem unitEvent_kept (s : State) (m : Measured) (react : Ctx → Units → Units)
    (h : P (react { m := m, c := s.c } s.u)) : P (unitEvent s m react).u :=
  settleEvent_kept hP s m false h

end

/-! ## What an event writes -/

/-- An event's measured part is the one its command gives. -/
theorem settleEvent_m (s : State) (m : Measured) (d : Desk) (due : Bool) : (settleEvent s m d due).m = m := rfl
theorem settleEvent_pending (s : State) (m : Measured) (d : Desk) (due : Bool) : (settleEvent s m d due).pending = s.pending := rfl
theorem unitEvent_m (s : State) (m : Measured) (f : Ctx → Units → Units) : (unitEvent s m f).m = m := rfl
theorem unitEvent_pending (s : State) (m : Measured) (f : Ctx → Units → Units) : (unitEvent s m f).pending = s.pending := rfl

theorem settleEvent_settled (s : State) (m : Measured) (d : Desk) (due : Bool) : portsSettled (settleEvent s m d due) := by
  unfold portsSettled
  rw [settleEvent_desk]
  exact servePorts_settled m _

theorem settleEvent_rxLe (s : State) (m : Measured) (d : Desk) (due : Bool) : RxLe d (settleEvent s m d due).desk := by
  rw [settleEvent_desk]
  exact servePorts_rxLe m { c := d.c, u := finish s.ctx s.u due (d.ctx m) d.u }

/-- With no request waiting, an event is the settlement and the transmitters. -/
theorem settleEvent_quiet (s : State) (m : Measured) (d : Desk) (due : Bool) (h : noRequestWaits d.c) :
    (settleEvent s m d due).desk = sendAll m { c := d.c, u := finish s.ctx s.u due (d.ctx m) d.u } := by
  rw [settleEvent_desk]
  exact servePorts_quiet m h

end Sys2Proof.Laws
end

