-- ==== Sys2Proof/Laws/Steps.lean ====
section
/-! SUPPORT. What every command keeps: a property that is Kept survives every command but the resets and an echo, and an
echo too where it survives the clearing of a record and the rise of CHAIN_EN. -/
namespace Sys2Proof.Laws
open Sys2Proof.Machine Sys2Proof.Safety

/-- What holds of the state a meaning answers. -/
theorem of_next {Q : State → Prop} {a t : State} (e : (Host.Outcome.next a : Answer) = .next t) (h : Q a) : Q t := by
  cases e; exact h

section
variable {P : Units → Prop} (hP : Kept P)
include hP

/-! ## Samples -/

theorem trackSense_kept (k : SenseChannel) (was : ChannelRange) (ok : Bool) (x : Ctx) {u : Units} (h : P u) :
    P (trackSense k was ok x u) := by
  unfold trackSense
  repeat' split
  all_goals first | exact h | exact hP.unmarked _ _ h | exact raise_kept hP _ _ _ _ h

theorem trackUndervolt_kept (v : Int) (x : Ctx) {u : Units} (h : P u) : P (trackUndervolt v x u) := by
  unfold trackUndervolt
  dsimp only
  repeat' split
  all_goals first | exact h | exact hP.unmarked _ _ h | exact raise_kept hP _ _ _ _ h

theorem reactVbat_kept (was : ChannelRange) (v : Int) (x : Ctx) {u : Units} (h : P u) : P (reactVbat was v x u) :=
  hP.calm (applyLimit_calm x (.refl _)) (trackUndervolt_kept hP _ _ (trackSense_kept hP _ _ _ _ h))

theorem reactIbus_kept (was : ChannelRange) (v : Int) (x : Ctx) {u : Units} (h : P u) : P (reactIbus was v x u) :=
  hP.calm (checkOverload_calm v x (.refl _)) (trackSense_kept hP _ _ _ _ h)

theorem reactPman_kept (was : ChannelRange) (v : Int) (c : Bool) (x : Ctx) {u : Units} (h : P u) :
    P (reactPman was v c x u) := by
  have k := trackSense_kept hP .pman was (inRange 0 3000 v) x h
  unfold reactPman
  dsimp only
  split
  · exact raise_kept hP _ _ _ _ k
  · exact k

theorem reactPj_kept (j : Fin 6) (was : ChannelRange) (c : Bool) (v : Int) (x : Ctx) {u : Units} (h : P u) :
    P (reactPj j was c v x u) := by
  have k : P (trackPj j was (inRange 0 3000 v) x u) := by
    unfold trackPj
    repeat' split
    all_goals first | exact h | exact hP.unmarked _ _ h | exact raiseGroup_kept hP _ _ _ _ h
  unfold reactPj
  dsimp only
  split
  · exact k
  · exact hP.calm (followJacks_calm x (.refl _)) k

theorem reactTilt_kept (a : TiltAxis) (was : ChannelRange) (v : Int) (x : Ctx) {u : Units} (h : P u) :
    P (reactTilt a was v x u) := by
  have k : P (trackTilt a was (tiltOk v) x u) := by
    unfold trackTilt
    repeat' split
    all_goals first | exact h | exact hP.unmarked _ _ h | exact raiseGroup_kept hP _ _ _ _ h
  exact hP.calm (watchDrift_calm x (liftSample_calm a v x (.refl _))) k

/-! ## Pulses and timers that raise -/

theorem reactPulse_kept (x0 : Ctx) (a : Axis) (x : Ctx) {u : Units} (h : P u) : P (reactPulse x0 a x u) := by
  cases a with
  | roomEnd n e =>
    have k := hP.calm (reshapeEnd_calm x0 x n e (.refl _)) h
    unfold reactPulse roomPulse
    dsimp only
    split
    · exact raiseGroup_kept hP _ _ _ _ k
    · exact hP.calm (syncHold_calm x n (releasePin_calm x n (stopAtEnd_calm x n e (.refl _)))) k
  | jack j =>
    unfold reactPulse jackPulse
    dsimp only
    split
    · exact raiseGroup_kept hP _ _ _ _ h
    · exact h
  | awning =>
    have k := hP.calm (reshapeAwning_calm x0 x (.refl _)) h
    unfold reactPulse awningPulse
    dsimp only
    repeat' split
    · exact raiseGroup_kept hP _ _ _ _ k
    · exact hP.calm (writeAwningMotor_calm _ (.refl _)) k
    · exact k

theorem expireSeek_kept (x : Ctx) {u : Units} (h : P u) : P (expireSeek x u) := by
  unfold expireSeek
  split
  · exact raiseGroup_kept hP _ _ _ _ h
  · exact h

theorem expireRetract_kept (x : Ctx) {u : Units} (h : P u) : P (expireRetract x u) := by
  unfold expireRetract
  split
  · exact raiseGroup_kept hP _ _ _ _ h
  · exact h

theorem reactMissing_kept (hl : ∀ v, P v → P (landFlight v)) (r : Bool) (x : Ctx) {u : Units} (h : P u) :
    P (reactMissing r x u) := by
  unfold reactMissing
  refine hl _ ?_
  split
  · exact raise_kept hP _ _ _ _ h
  · exact h

/-! ## Echoes -/

theorem raiseNewTrips_kept (x : Ctx) (last : Option Echo) (e : Echo) {u : Units} (h : P u) :
    P (raiseNewTrips x last e u) := by
  unfold raiseNewTrips
  exact kept_foldl _ (fun _ _ hv => raiseTrip_kept hP _ _ hv) _ h

theorem trackHot_kept (x : Ctx) (e : Echo) {u : Units} (h : P u) : P (trackHot x e u) := by
  unfold trackHot
  repeat' split
  all_goals first | exact h | exact hP.unmarked _ _ h | exact raise_kept hP _ _ _ _ h

/-- A property that survives the confirmation and the clearing of a record. -/
structure KeptByEcho (P : Units → Prop) : Prop where
  confirmed : ∀ {u} s, P u → P (setFault s { faultOf u s with confirmed := true } u)
  cleared : ∀ {u} s, P u → P (setFault s {} u)

variable (hE : KeptByEcho P)
include hE

omit hP in
theorem confirmAll_kept (latched : Image) {u : Units} (h : P u) : P (confirmAll latched u) := by
  unfold confirmAll
  refine kept_foldl _ (fun v s hv => ?_) _ h
  unfold confirmSubject
  repeat' split
  · exact hE.confirmed s hv
  · exact hv
  · exact hv

theorem clearHeld_kept (x : Ctx) (s : Subject) (hs : List HeldClear) {u : Units} (h : P u) : P (clearHeld x s hs u) := by
  unfold clearHeld
  split
  · exact h
  · next k rest =>
    refine hP.calm (Calm.foldl _ (fun v h => respondHeld_calm x h .ok (.refl v)) _ (.refl _)) ?_
    have h1 : P { u with heldClears := u.heldClears.filter fun h => h.subject != s } :=
      hP.same (u := u) ⟨rfl, rfl, rfl, fun n l => n l⟩ h
    have h2 := hP.calm (offerAll_calm x (.faultCleared s k.link) (.refl _)) (hE.cleared s h1)
    unfold clearRecord
    dsimp only
    repeat' split
    · exact hP.calm (leaveFault_calm x _ (.refl _)) h2
    · exact h2
    · exact h2

theorem decideHeld_kept (x : Ctx) (last : Option Echo) (e : Echo) (s : Subject) {u : Units} (h : P u) :
    P (decideHeld x last e u s) := by
  unfold decideHeld
  dsimp only
  repeat' split
  · exact h
  · exact hP.same (answerStillActive_same x _ _) h
  · exact hP.same (answerStillActive_same x _ _) (raiseTrip_kept hP _ _ h)
  · exact hP.same (answerStillActive_same x _ _) h
  · exact clearHeld_kept hP hE x s _ h

/-- An echo but for the rise of CHAIN_EN. -/
theorem reactEcho_kept (f : Flight) (e : Echo) (last : Option Echo) (r : Option (Fin 33)) (x : Ctx) {u : Units} (h : P u)
    (hl : ∀ v, P v → P (landFlight v)) (hR : ∀ v, P v → P (riseChain x f e v)) : P (reactEcho f e last r x u) := by
  have h1 : P (match r with | some k => raise x .coach .chainEcho (.channel k) u | none => u) := by
    split
    · exact raise_kept hP _ _ _ _ h
    · exact h
  have h2 := trackHot_kept hP x e (raiseNewTrips_kept hP x last e h1)
  have h3 := hP.settled (confirmAll_kept hE e.latched h2)
  have h4 := kept_foldl (decideHeld x last e) (fun v s hv => decideHeld_kept hP hE x last e s hv) allSubjects h3
  unfold reactEcho
  exact hR _ (hl _ h4)

end

/-! ## Commands -/

/-- The two resets and an echo: the commands that may clear a record or raise CHAIN_EN. -/
def clearsOrRises : Instr → Bool
  | .powerOnReset _ | .xrst _ | .echoReceived _ => true
  | _ => false

section
variable {P : Units → Prop} (hP : Framed P)
include hP

theorem landFlight_kept (v : Units) (h : P v) : P (landFlight v) := hP.framed (u := v) rfl rfl (fun n l => n l) h

theorem queueRequest_kept (l : Link) (q : QueuedRequest) {d : Desk} (h : P d.u) : P (queueRequest l q d).u := by
  unfold queueRequest
  repeat' split
  · exact h
  · exact hP.toKept.calm (respond_calm _ _ _ _ _ (.refl _)) h
  · exact h

theorem receive_kept (l : Link) (tag : Byte) (q : Request) (s : State) (h : P s.u) {t : State}
    (e : receive l tag q s = .next t) : P t.u := by
  unfold receive at e
  generalize hd : queueRequest l { tag := tag, req := q } { s.desk with c := hearLink s.m l s.c } = d at e
  have k : P d.u := hd ▸ queueRequest_kept hP l _ h
  have r := settleEvent_kept hP s s.m false k
  generalize settleEvent s s.m d false = a at e r
  cases e
  exact r

theorem silence_kept (m : Measured) (l : Link) {d : Desk} (h : P d.u) : P (silenceUnits m l (silencePort l d)).u := by
  have h1 : P (silencePort l d).u :=
    hP.same (u := d.u) ⟨rfl, rfl, rfl, fun n => updOut_bounded n fun _ => Nat.zero_le _⟩ h
  exact hP.toKept.calm (silenceVirtual_calm m l (calm_waitList _ (releaseAll_calm _ _ _ _ (.refl _)))) h1

theorem next_settle_kept {s : State} {m : Measured} {d : Desk} {due : Bool} {t : State} (h : P d.u)
    (e : (Host.Outcome.next (settleEvent s m d due) : Answer) = .next t) : P t.u :=
  of_next (Q := fun t => P t.u) e (settleEvent_kept hP s m due h)

theorem next_unit_kept {s : State} {m : Measured} {f : Ctx → Units → Units} {t : State} (h : P (f { m := m, c := s.c } s.u))
    (e : (Host.Outcome.next (unitEvent s m f) : Answer) = .next t) : P t.u :=
  of_next (Q := fun t => P t.u) e (unitEvent_kept hP s m f h)

theorem next_calm_kept {s a t : State} (h : P s.u) (e : (Host.Outcome.next a : Answer) = .next t) (ha : Calm s.u a.u) :
    P t.u :=
  of_next (Q := fun t => P t.u) e (hP.toKept.calm ha h)

omit hP in
theorem next_same_kept {s a t : State} (h : P s.u) (e : (Host.Outcome.next a : Answer) = .next t) (ha : a.u = s.u) : P t.u :=
  of_next (Q := fun t => P t.u) e (ha ▸ h)

theorem execByteReceived_kept (l : Link) (b : Byte) {s t : State} (h : P s.u) (e : execByteReceived l b s = .next t) : P t.u := by
  unfold execByteReceived collectByte at e
  repeat' split at e
  · exact next_same_kept h e rfl
  · exact next_same_kept h e rfl
  · exact next_same_kept h e rfl
  · exact next_same_kept h e rfl
  · exact next_same_kept h e rfl
  · exact receive_kept hP _ _ _ s h e
  · exact next_same_kept h e rfl

theorem execVbatSample_kept (v : Int) {s t : State} (h : P s.u) (e : execVbatSample v s = .next t) : P t.u := by
  exact next_unit_kept hP (reactVbat_kept hP.toKept _ _ _ h) e

theorem execIbusSample_kept (v : Int) {s t : State} (h : P s.u) (e : execIbusSample v s = .next t) : P t.u := by
  exact next_unit_kept hP (reactIbus_kept hP.toKept _ _ _ h) e

theorem execPmanSample_kept (v : Int) {s t : State} (h : P s.u) (e : execPmanSample v s = .next t) : P t.u := by
  exact next_unit_kept hP (reactPman_kept hP.toKept _ _ _ _ h) e

theorem execTiltSample_kept (a : TiltAxis) (v : Int) {s t : State} (h : P s.u) (e : execTiltSample a v s = .next t) : P t.u := by
  exact next_unit_kept hP (reactTilt_kept hP.toKept _ _ _ _ h) e

theorem execLineDebounceChange_kept (n : Fin 16) (v : Level) (since : CoachTime) {s t : State} (h : P s.u) (e : execLineDebounceChange n v since s = .next t) : P t.u := by
  exact next_settle_kept hP (hP.toKept.calm (showLevel_calm _ _ _ _ (.refl _)) h) e

omit hP in
theorem execSpdPulse_kept {s t : State} (h : P s.u) (e : execSpdPulse s = .next t) : P t.u := by
  exact next_same_kept h e rfl

omit hP in
theorem execAnemometerPulse_kept {s t : State} (h : P s.u) (e : execAnemometerPulse s = .next t) : P t.u := by
  exact next_same_kept h e rfl

omit hP in
theorem execCrcMismatchDiscard_kept (l : Link) {s t : State} (h : P s.u) (e : execCrcMismatchDiscard l s = .next t) : P t.u := by
  exact next_same_kept h e rfl

omit hP in
theorem execLengthDiscard_kept (l : Link) {s t : State} (h : P s.u) (e : execLengthDiscard l s = .next t) : P t.u := by
  exact next_same_kept h e rfl

omit hP in
theorem execFramingError_kept (l : Link) {s t : State} (h : P s.u) (e : execFramingError l s = .next t) : P t.u := by
  exact next_same_kept h e rfl

omit hP in
theorem execReceiverOverrun_kept (l : Link) {s t : State} (h : P s.u) (e : execReceiverOverrun l s = .next t) : P t.u := by
  exact next_same_kept h e rfl

omit hP in
theorem execPartialFrameTimeout_kept (l : Link) {s t : State} (h : P s.u) (e : execPartialFrameTimeout l s = .next t) : P t.u := by
  unfold execPartialFrameTimeout at e
  repeat' split at e
  all_goals exact next_same_kept h e rfl

omit hP in
theorem execLineBreak_kept (l : Link) {s t : State} (h : P s.u) (e : execLineBreak l s = .next t) : P t.u := by
  unfold execLineBreak at e
  split at e
  · exact next_same_kept h e rfl
  · exact next_same_kept h e rfl

theorem execTransmitFrameEnd_kept (l : Link) {s t : State} (h : P s.u) (e : execTransmitFrameEnd l s = .next t) : P t.u := by
  unfold execTransmitFrameEnd at e
  split at e
  · exact next_settle_kept hP h e
  · exact next_same_kept h e rfl

theorem execSilenceDeadline_kept (l : Link) {s t : State} (h : P s.u) (e : execSilenceDeadline l s = .next t) : P t.u := by
  unfold execSilenceDeadline at e
  split at e
  · exact next_settle_kept hP (silence_kept hP _ _ h) e
  · exact next_same_kept h e rfl

theorem execPreemptionTimeReached_kept (i : Nat) {s t : State} (h : P s.u) (e : execPreemptionTimeReached i s = .next t) : P t.u := by
  unfold execPreemptionTimeReached at e
  repeat' split at e
  · exact next_unit_kept hP (hP.toKept.calm (firstTest_calm _ _ _ (.refl _)) h) e
  all_goals exact next_same_kept h e rfl

theorem execClaimWaitDeadline_kept (i : Nat) {s t : State} (h : P s.u) (e : execClaimWaitDeadline i s = .next t) : P t.u := by
  unfold execClaimWaitDeadline at e
  repeat' split at e
  · exact next_unit_kept hP (hP.toKept.calm (expireEntry_calm _ _ _ (.refl _)) h) e
  all_goals exact next_same_kept h e rfl

theorem execPjSample_kept (j : Fin 6) (v : Int) {s t : State} (h : P s.u) (e : execPjSample j v s = .next t) : P t.u := by
  unfold execPjSample at e
  split at e
  · exact next_unit_kept hP (reactPj_kept hP.toKept _ _ _ _ _ h) e
  · exact next_same_kept h e rfl

theorem execRoadSpeedWindowEnd_kept {s t : State} (h : P s.u) (e : execRoadSpeedWindowEnd s = .next t) : P t.u := by
  unfold execRoadSpeedWindowEnd at e
  split at e
  · exact next_unit_kept hP h e
  · exact next_same_kept h e rfl

theorem execEstopAsserted_kept {s t : State} (h : P s.u) (e : execEstopAsserted s = .next t) : P t.u := by
  unfold execEstopAsserted at e
  split at e
  · exact next_same_kept h e rfl
  · exact next_unit_kept hP (raise_kept hP.toKept _ _ _ _ h) e

theorem execEstopReleased_kept {s t : State} (h : P s.u) (e : execEstopReleased s = .next t) : P t.u := by
  unfold execEstopReleased at e
  split at e
  · exact next_unit_kept hP (hP.unmarked _ _ h) e
  · exact next_same_kept h e rfl

theorem execInSwitchChange_kept (n : Fin 6) (e : RoomEnd) (made : Bool) {s t : State} (h : P s.u) (e : execInSwitchChange n e made s = .next t) : P t.u := by
  unfold execInSwitchChange at e
  split at e
  · exact next_same_kept h e rfl
  · exact next_unit_kept hP (hP.toKept.calm (reactIn_calm _ _ _ _ _ (.refl _)) h) e

theorem execLockSwitchChange_kept (n : Fin 6) (w : LockSwitch) (made : Bool) {s t : State} (h : P s.u) (e : execLockSwitchChange n w made s = .next t) : P t.u := by
  unfold execLockSwitchChange at e
  split at e
  · exact next_same_kept h e rfl
  · exact next_unit_kept hP (hP.toKept.calm (followRoom_calm _ _ (.refl _)) h) e

theorem execJackStowedSwitchChange_kept (j : Fin 6) (made : Bool) {s t : State} (h : P s.u) (e : execJackStowedSwitchChange j made s = .next t) : P t.u := by
  unfold execJackStowedSwitchChange at e
  split at e
  · exact next_same_kept h e rfl
  · exact next_unit_kept hP (hP.toKept.calm (calm_ite (followJacks_calm _ (.refl _)) (.refl _)) h) e

theorem execAwningStowedSwitchChange_kept (made : Bool) {s t : State} (h : P s.u) (e : execAwningStowedSwitchChange made s = .next t) : P t.u := by
  unfold execAwningStowedSwitchChange at e
  split at e
  · exact next_same_kept h e rfl
  · exact next_unit_kept hP (hP.toKept.calm (reactAwningSwitch_calm _ _ _ (.refl _)) h) e

theorem execAxisPulse_kept (a : Axis) {s t : State} (h : P s.u) (e : execAxisPulse a s = .next t) : P t.u := by
  unfold execAxisPulse at e
  dsimp only at e
  split at e
  · exact next_same_kept h e rfl
  · exact next_unit_kept hP (reactPulse_kept hP.toKept _ _ _ h) e

theorem execStall_kept (a : Axis) {s t : State} (h : P s.u) (e : execStall a s = .next t) : P t.u := by
  unfold execStall at e
  split at e
  · exact next_unit_kept hP (raiseGroup_kept hP.toKept _ _ _ _ h) e
  · exact next_same_kept h e rfl

theorem execWindSecondBoundary_kept {s t : State} (h : P s.u) (e : execWindSecondBoundary s = .next t) : P t.u := by
  unfold execWindSecondBoundary at e
  split at e
  · exact next_unit_kept hP (hP.toKept.calm (reactSecond_calm _ _ (.refl _)) h) e
  · exact next_same_kept h e rfl

theorem execVirtualLineDeadline_kept (v : Fin 8) {s t : State} (h : P s.u) (e : execVirtualLineDeadline v s = .next t) : P t.u := by
  unfold execVirtualLineDeadline at e
  split at e
  · exact next_settle_kept hP (hP.toKept.calm (dropVirtual_calm _ _ (.refl _)) h) e
  · exact next_same_kept h e rfl

theorem execPeriodicFrameStart_kept {s t : State} (h : P s.u) (e : execPeriodicFrameStart s = .next t) : P t.u := by
  unfold execPeriodicFrameStart at e
  split at e
  · exact next_settle_kept hP h e
  · exact next_same_kept h e rfl

theorem execEchoMissing_kept {s t : State} (h : P s.u) (e : execEchoMissing s = .next t) : P t.u := by
  unfold execEchoMissing at e
  repeat' split at e
  · exact next_same_kept h e rfl
  · exact next_settle_kept hP (reactMissing_kept hP.toKept (landFlight_kept hP) _ _ h) e
  · exact next_same_kept h e rfl

theorem execPinTimeout_kept (n : Fin 6) {s t : State} (h : P s.u) (e : execPinTimeout n s = .next t) : P t.u := by
  unfold execPinTimeout at e
  split at e
  · exact next_unit_kept hP (raiseGroup_kept hP.toKept _ _ _ _ h) e
  · exact next_same_kept h e rfl

theorem execRoomDwellEnd_kept (n : Fin 6) {s t : State} (h : P s.u) (e : execRoomDwellEnd n s = .next t) : P t.u := by
  unfold execRoomDwellEnd at e
  split at e
  · exact next_unit_kept hP (hP.toKept.calm (endDwell_calm _ _ (.refl _)) h) e
  · exact next_same_kept h e rfl

theorem execAwningDwellEnd_kept {s t : State} (h : P s.u) (e : execAwningDwellEnd s = .next t) : P t.u := by
  unfold execAwningDwellEnd at e
  split at e
  · exact next_unit_kept hP (hP.toKept.calm (endAwningDwell_calm _ (.refl _)) h) e
  · exact next_same_kept h e rfl

theorem execHoldDeadlineExpiry_kept (g : Group) {s t : State} (h : P s.u) (e : execHoldDeadlineExpiry g s = .next t) : P t.u := by
  unfold execHoldDeadlineExpiry at e
  split at e
  · exact next_unit_kept hP (hP.toKept.calm (stopMotion_calm _ _ _ (.refl _)) h) e
  · exact next_same_kept h e rfl

theorem execSeekTimeout_kept {s t : State} (h : P s.u) (e : execSeekTimeout s = .next t) : P t.u := by
  unfold execSeekTimeout at e
  split at e
  · exact next_unit_kept hP (expireSeek_kept hP.toKept _ h) e
  · exact next_same_kept h e rfl

theorem execSettleEnd_kept {s t : State} (h : P s.u) (e : execSettleEnd s = .next t) : P t.u := by
  unfold execSettleEnd at e
  split at e
  · exact next_unit_kept hP (hP.toKept.calm (endSettle_calm _ (.refl _)) h) e
  · exact next_same_kept h e rfl

theorem execLiftDeadline_kept {s t : State} (h : P s.u) (e : execLiftDeadline s = .next t) : P t.u := by
  unfold execLiftDeadline at e
  split at e
  · exact next_unit_kept hP (hP.toKept.calm (endLift_calm _ (.refl _)) h) e
  · exact next_same_kept h e rfl

theorem execRetractTimeout_kept {s t : State} (h : P s.u) (e : execRetractTimeout s = .next t) : P t.u := by
  unfold execRetractTimeout at e
  split at e
  · exact next_unit_kept hP (expireRetract_kept hP.toKept _ h) e
  · exact next_same_kept h e rfl

theorem execSwitchingEnd_kept {s t : State} (h : P s.u) (e : execSwitchingEnd s = .next t) : P t.u := by
  unfold execSwitchingEnd at e
  split at e
  · exact next_unit_kept hP (hP.toKept.calm (endSwitching_calm _ (.refl _)) h) e
  · exact next_same_kept h e rfl

theorem execHeatRise_kept {s t : State} (h : P s.u) (e : execHeatRise s = .next t) : P t.u := by
  unfold execHeatRise at e
  dsimp only at e
  repeat' split at e
  · exact next_unit_kept hP (f := fun x u => enterCooling x (nextHeatInterval Config.heatRiseMs u))
      (hP.toKept.calm (enterCooling_calm _ (nextHeatInterval_calm _ (.refl s.u))) h) e
  · exact next_calm_kept hP h e (nextHeatInterval_calm _ (.refl _))
  · exact next_same_kept h e rfl

theorem execHeatFall_kept {s t : State} (h : P s.u) (e : execHeatFall s = .next t) : P t.u := by
  unfold execHeatFall at e
  dsimp only at e
  repeat' split at e
  · exact next_unit_kept hP (f := fun x u => nextTurn x (nextHeatInterval Config.heatFallMs u))
      (hP.toKept.calm (nextTurn_calm _ (nextHeatInterval_calm _ (.refl s.u))) h) e
  · exact next_calm_kept hP h e (nextHeatInterval_calm _ (.refl _))
  · exact next_same_kept h e rfl

/-- What is Kept survives every command but the resets and an echo. -/
theorem exec_kept (i : Instr) (s : State) (hi : clearsOrRises i = false) (h : P s.u) {t : State}
    (e : exec i s = .next t) : P t.u := by
  cases i
  case powerOnReset | xrst | echoReceived => cases hi
  case ping | linkStatus | profileStage | profileCommit | profileAbandon | profileGet | postureGet | claim | release
      | roomMove | roomStop | jackAuto | jackSeek | jackJog | jackRetract | jackStop | awningMove | awningStop
      | stopAll | holdRefresh | attentionSet | linesSet | mapWrite | mapRead | faultGet | faultClear | validFrameReceipt =>
    exact receive_kept hP _ _ _ s h e
  case byteReceived => exact execByteReceived_kept hP _ _ h e
  case vbatSample => exact execVbatSample_kept hP _ h e
  case ibusSample => exact execIbusSample_kept hP _ h e
  case pmanSample => exact execPmanSample_kept hP _ h e
  case tiltSample => exact execTiltSample_kept hP _ _ h e
  case lineDebounceChange => exact execLineDebounceChange_kept hP _ _ _ h e
  case spdPulse => exact execSpdPulse_kept h e
  case anemometerPulse => exact execAnemometerPulse_kept h e
  case crcMismatchDiscard => exact execCrcMismatchDiscard_kept _ h e
  case lengthDiscard => exact execLengthDiscard_kept _ h e
  case framingError => exact execFramingError_kept _ h e
  case receiverOverrun => exact execReceiverOverrun_kept _ h e
  case partialFrameTimeout => exact execPartialFrameTimeout_kept _ h e
  case lineBreak => exact execLineBreak_kept _ h e
  case transmitFrameEnd => exact execTransmitFrameEnd_kept hP _ h e
  case silenceDeadline => exact execSilenceDeadline_kept hP _ h e
  case preemptionTimeReached => exact execPreemptionTimeReached_kept hP _ h e
  case claimWaitDeadline => exact execClaimWaitDeadline_kept hP _ h e
  case pjSample => exact execPjSample_kept hP _ _ h e
  case roadSpeedWindowEnd => exact execRoadSpeedWindowEnd_kept hP h e
  case estopAsserted => exact execEstopAsserted_kept hP h e
  case estopReleased => exact execEstopReleased_kept hP h e
  case inSwitchChange => exact execInSwitchChange_kept hP _ _ _ h e
  case lockSwitchChange => exact execLockSwitchChange_kept hP _ _ _ h e
  case jackStowedSwitchChange => exact execJackStowedSwitchChange_kept hP _ _ h e
  case awningStowedSwitchChange => exact execAwningStowedSwitchChange_kept hP _ h e
  case axisPulse => exact execAxisPulse_kept hP _ h e
  case stall => exact execStall_kept hP _ h e
  case windSecondBoundary => exact execWindSecondBoundary_kept hP h e
  case virtualLineDeadline => exact execVirtualLineDeadline_kept hP _ h e
  case periodicFrameStart => exact execPeriodicFrameStart_kept hP h e
  case echoMissing => exact execEchoMissing_kept hP h e
  case pinTimeout => exact execPinTimeout_kept hP _ h e
  case roomDwellEnd => exact execRoomDwellEnd_kept hP _ h e
  case awningDwellEnd => exact execAwningDwellEnd_kept hP h e
  case holdDeadlineExpiry => exact execHoldDeadlineExpiry_kept hP _ h e
  case seekTimeout => exact execSeekTimeout_kept hP h e
  case settleEnd => exact execSettleEnd_kept hP h e
  case liftDeadline => exact execLiftDeadline_kept hP h e
  case retractTimeout => exact execRetractTimeout_kept hP h e
  case switchingEnd => exact execSwitchingEnd_kept hP h e
  case heatRise => exact execHeatRise_kept hP h e
  case heatFall => exact execHeatFall_kept hP h e

end

end Sys2Proof.Laws
end

