-- ==== Sys2Proof/Laws/Budget.lean ====
section
/-! SUPPORT. What keeps the admissions within the limit in RUN (R49): one lemma for every operation on the units, each
proved from its definition by the lemmas of what it calls, and the lift of these to the setup part and to a whole
event. -/
set_option linter.unusedTactic false
set_option linter.unreachableTactic false
set_option linter.unnecessarySeqFocus false
set_option linter.unusedSimpArgs false
set_option linter.unusedVariables false
namespace Sys2Proof.Laws
open Sys2Proof.Machine Sys2Proof.Safety

theorem sum_sublist {l m : List Admission} (h : l.Sublist m) : (l.map (·.allocation)).sum ≤ (m.map
    (·.allocation)).sum := by
  induction h with
  | slnil => exact Nat.le_refl _
  | cons a _ ih => simp only [List.map_cons, List.sum_cons]; omega
  | cons_cons a _ ih => simp only [List.map_cons, List.sum_cons]; omega

theorem drop_within (x : Ctx) {u v : Units} (hw : budgetWithin x u) (ha : v.admissions.Sublist u.admissions)
    (hq : v.budgetQueue.Sublist u.budgetQueue) : budgetWithin x v :=
  ⟨((ha.map _).append (hq.map _)).nodup hw.1, (sum_sublist (ha.filter _)).trans hw.2.1, (sum_sublist ha).trans
      hw.2.2.1,
    fun a h => hw.2.2.2.1 a (ha.subset h), fun a h => hw.2.2.2.2.1 a (hq.subset h), hw.2.2.2.2.2⟩

theorem not_both {x : Ctx} {u : Units} (hw : budgetWithin x u) : ∀ e ∈ u.admissions, ∀ w ∈ u.budgetQueue, e.consumer
    ≠ w.consumer := by
  intro e he w hq c
  have := (List.nodup_append.1 hw.1).2.2
  exact this _ (List.mem_map_of_mem he) _ (List.mem_map_of_mem hq) c

/-- The awning's admissions together are within the reserve. -/
theorem awning_sum {x : Ctx} : ∀ (l : List Admission), (l.map (·.consumer)).Nodup → (∀ a ∈ l, a.consumer = .awning →
    a.allocation ≤ reserve x) →
    (l.map (·.allocation)).sum ≤ ((l.filter fun a => a.consumer != .awning).map (·.allocation)).sum + reserve x
  | [], _, _ => Nat.zero_le _
  | a :: l, hn, h => by
    simp only [List.map_cons, List.nodup_cons] at hn
    by_cases c : a.consumer = .awning
    · have hl : (l.filter fun a => a.consumer != .awning) = l := by
        rw [List.filter_eq_self]
        intro b hb
        have : b.consumer ≠ .awning := fun e => hn.1 (List.mem_map.2 ⟨b, hb, by rw [e, c]⟩)
        simpa using this
      have ha := h a (List.mem_cons_self ..) c
      simp only [List.filter_cons, c, bne_self_eq_false, Bool.false_eq_true, if_false, hl, List.map_cons,
          List.sum_cons]
      omega
    · have ih := awning_sum l hn.2 fun b hb => h b (List.mem_cons_of_mem _ hb)
      have : (a.consumer != Consumer.awning) = true := by simpa using c
      simp only [List.filter_cons, this, if_true, List.map_cons, List.sum_cons]
      omega

theorem join_within {u : Units} (x : Ctx) (k : Consumer) (a : Nat) (hw : budgetWithin x u) (h1 : ∀ e ∈ u.admissions,
    e.consumer ≠ k)
    (h2 : ∀ e ∈ u.budgetQueue, e.consumer ≠ k) (h3 : k = .awning → a ≤ reserve x) (hf : fits x u k a = true) :
    budgetWithin x (joinAdmissions x k a u) := by
  unfold joinAdmissions
  have hn : ((u.admissions ++ [({ consumer := k, allocation := a, stamp := x.now } : Admission)]).map (·.consumer) ++
      u.budgetQueue.map (·.consumer)).Nodup := by
    have := hw.1
    simp only [List.map_append, List.map_cons, List.map_nil, List.append_assoc, List.singleton_append]
    rw [List.nodup_middle, List.nodup_cons]
    refine ⟨fun m => ?_, this⟩
    rcases List.mem_append.1 m with m | m <;> obtain ⟨e, he, hk⟩ := List.mem_map.1 m
    · exact h1 e he hk
    · exact h2 e he hk
  have ha : ∀ e ∈ u.admissions ++ [({ consumer := k, allocation := a, stamp := x.now } : Admission)], e.consumer =
      .awning → e.allocation ≤ reserve x := by
    intro e he
    rcases List.mem_append.1 he with m | m
    · exact hw.2.2.2.1 e m
    · simp only [List.mem_singleton] at m; subst m; exact h3
  have hs := awning_sum _ (List.nodup_append.1 hn).1 ha
  refine ⟨hn, ?_, ?_, ha, hw.2.2.2.2.1, hw.2.2.2.2.2⟩
  · unfold fits at hf
    by_cases c : k = .awning
    · subst c; simpa using hw.2.1
    · rw [if_neg c] at hf
      have hf := of_decide_eq_true hf
      unfold nonAwningSum totalSum nonAwningBound at hf
      have : (k != Consumer.awning) = true := by simpa using c
      simpa [List.filter_append, this] using hf
  · unfold fits at hf
    by_cases c : k = .awning
    · rw [if_pos c] at hf
      have hf := of_decide_eq_true hf
      unfold totalSum at hf
      simpa using hf
    · rw [if_neg c] at hf
      have hf := of_decide_eq_true hf
      unfold nonAwningSum totalSum nonAwningBound at hf
      have : (k != Consumer.awning) = true := by simpa using c
      have ht := hw.2.2.1
      simp only [List.filter_append, List.filter_cons, this, if_true, List.filter_nil, List.map_append,
          List.map_cons, List.map_nil, List.sum_append, List.sum_cons, List.sum_nil] at hs hf ⊢
      omega

theorem enqueue_within {u : Units} (x : Ctx) (k : Consumer) (a : Nat) (cause : WaitCause) (hw : budgetWithin x u) (h1
    : ∀ e ∈ u.admissions, e.consumer ≠ k)
    (h2 : ∀ e ∈ u.budgetQueue, e.consumer ≠ k) (h3 : k = .awning → a ≤ reserve x) :
    budgetWithin x (enqueue x k a cause u) := by
  unfold enqueue
  refine ⟨?_, hw.2.1, hw.2.2.1, hw.2.2.2.1, ?_, hw.2.2.2.2.2⟩
  · have := hw.1
    simp only [List.map_append, List.map_cons, List.map_nil]
    rw [← List.append_assoc, List.nodup_append]
    refine ⟨this, List.nodup_singleton _, ?_⟩
    intro c hc d hd e
    simp only [List.mem_singleton] at hd
    subst hd; subst e
    rcases List.mem_append.1 hc with m | m <;> obtain ⟨e, he, hk⟩ := List.mem_map.1 m
    · exact h1 e he hk
    · exact h2 e he hk
  · intro e he
    rcases List.mem_append.1 he with m | m
    · exact hw.2.2.2.2.1 e m
    · simp only [List.mem_singleton] at m; subst m; exact h3

@[simp] theorem foldl_within {α : Type} {x : Ctx} (f : Units → α → Units) (hf : ∀ u a, budgetWithin x u →
    budgetWithin x (f u a)) :
    ∀ (l : List α) {u : Units}, budgetWithin x u → budgetWithin x (l.foldl f u)
  | [], _, h => h
  | a :: l, _, h => foldl_within f hf l (hf _ a h)

@[simp] theorem within_ite {x : Ctx} {a b : Units} {c : Prop} [Decidable c] (ha : budgetWithin x a) (hb :
    budgetWithin x b) :
    budgetWithin x (if c then a else b) := by split <;> assumption
@[simp] theorem within_overload {x : Ctx} {u : Units} (t : Option CoachTime) (h : budgetWithin x u) : budgetWithin x
    { u with overload := t } := h
@[simp] theorem within_pendingMarks {x : Ctx} {u : Units} (t : Vector Bool 24) (h : budgetWithin x u) : budgetWithin
    x { u with pendingMarks := t } := h
@[simp] theorem within_heldClears {x : Ctx} {u : Units} (t : List HeldClear) (h : budgetWithin x u) : budgetWithin x
    { u with heldClears := t } := h
@[simp] theorem within_waitList {x : Ctx} {u : Units} (t : List WaitEntry) (h : budgetWithin x u) : budgetWithin x {
    u with waitList := t } := h
@[simp] theorem within_chainEn {x : Ctx} {u : Units} (t : Bool) (h : budgetWithin x u) : budgetWithin x { u with
    chainEn := t } := h
@[simp] theorem within_generation {x : Ctx} {u : Units} (t : Generation) (h : budgetWithin x u) : budgetWithin x { u
    with generation := t } := h
@[simp] theorem within_admitNil {x : Ctx} {u : Units} (h : budgetWithin x u) : budgetWithin x { u with admissions :=
    [] } :=
  drop_within x h (List.nil_sublist _) (.refl _)

/-! ## Notices -/

@[simp] theorem updOut_within {x : Ctx} {u : Units} (l : Link) (f : PortOut → PortOut) (hw : budgetWithin x u) :
    budgetWithin x (updOut u l f) := hw

@[simp] theorem offerTo_within {y : Ctx} {u : Units} (x : Ctx) (l : Link) (b : NoticeBody) (hw : budgetWithin y u) :
    budgetWithin y (offerTo x l b u) := by
  unfold offerTo
  split <;> exact hw

@[simp] theorem offerAll_within {u : Units} (x : Ctx) (b : NoticeBody) (hw : budgetWithin x u) :
    budgetWithin x (offerAll x b u) := by
  unfold offerAll
  (try dsimp only)
  (repeat' split) <;> first
    | exact hw
    | (simp (maxDischargeDepth := 40) [hw]; done)
    | (simp (maxDischargeDepth := 40) (contextual := true) [hw]; done)
    | (simp (maxDischargeDepth := 40) [*]; done)

@[simp] theorem offerLeast_within {u : Units} (x : Ctx) (b : NoticeBody) (hw : budgetWithin x u) :
    budgetWithin x (offerLeast x b u) := by
  unfold offerLeast
  (repeat' split) <;> simp [hw]

@[simp] theorem offerRoute_within {u : Units} (x : Ctx) (r : Route) (b : NoticeBody) (hw : budgetWithin x u) :
    budgetWithin x (offerRoute x r b u) := by
  unfold offerRoute
  (try dsimp only)
  (repeat' split) <;> first
    | exact hw
    | (simp (maxDischargeDepth := 40) [hw]; done)
    | (simp (maxDischargeDepth := 40) (contextual := true) [hw]; done)
    | (simp (maxDischargeDepth := 40) [*]; done)

@[simp] theorem offerMotion_within {u : Units} (x : Ctx) (q : Requester) (r : Route) (b : NoticeBody) (hw :
    budgetWithin x u) :
    budgetWithin x (offerMotion x q r b u) := by
  unfold offerMotion
  (repeat' split) <;> simp [hw]

@[simp] theorem offerHolder_within {u : Units} (x : Ctx) (g : Group) (b : NoticeBody) (hw : budgetWithin x u) :
    budgetWithin x (offerHolder x g b u) := by
  unfold offerHolder
  (repeat' split) <;> simp [hw]

@[simp] theorem respond_within {x : Ctx} {u : Units} (l : Link) (kind : Byte) (tag : Byte) (s : Status) (data : List
    Byte) (hw : budgetWithin x u) :
    budgetWithin x (respond l kind tag s data u) := hw

@[simp] theorem respondHeld_within {u : Units} (x : Ctx) (h : HeldClear) (s : Status) (hw : budgetWithin x u) :
    budgetWithin x (respondHeld x h s u) := by
  unfold respondHeld
  simp [hw]

/-! ## Ops -/

@[simp] theorem updImage_within {x : Ctx} {u : Units} (f : Image → Image) (hw : budgetWithin x u) :
    budgetWithin x (updImage u f) := hw

@[simp] theorem writeJackValve_within {x : Ctx} {u : Units} (j : Fin 6) (v : JackValve) (hw : budgetWithin x u) :
    budgetWithin x (writeJackValve j v u) := hw

@[simp] theorem closeJackValves_within {x : Ctx} {u : Units} (hw : budgetWithin x u) :
    budgetWithin x (closeJackValves u) := hw

@[simp] theorem writeRoomValve_within {x : Ctx} {u : Units} (n : Fin 6) (v : RoomValve) (hw : budgetWithin x u) :
    budgetWithin x (writeRoomValve n v u) := hw

@[simp] theorem writeMotor_within {x : Ctx} {u : Units} (n : Fin 6) (e : RoomEnd) (v : Motor) (hw : budgetWithin x u)
    :
    budgetWithin x (writeMotor n e v u) := hw

@[simp] theorem writeAwningMotor_within {x : Ctx} {u : Units} (v : Motor) (hw : budgetWithin x u) :
    budgetWithin x (writeAwningMotor v u) := hw

@[simp] theorem writePin_within {x : Ctx} {u : Units} (n : Fin 6) (on : Bool) (hw : budgetWithin x u) :
    budgetWithin x (writePin n on u) := hw

@[simp] theorem updManifold_within {x : Ctx} {u : Units} (f : Manifold → Manifold) (hw : budgetWithin x u) :
    budgetWithin x (updManifold u f) := hw

@[simp] theorem writePump_within {u : Units} {y : Ctx} (x : Ctx) (on : Bool) (hw : budgetWithin y u) : budgetWithin y
    (writePump x on u) := by
  unfold writePump; split <;> exact hw

@[simp] theorem updRoom_within {x : Ctx} {u : Units} (n : Fin 6) (f : Room → Room) (hw : budgetWithin x u) :
    budgetWithin x (updRoom n f u) := hw

@[simp] theorem updRoomMotion_within {x : Ctx} {u : Units} (n : Fin 6) (f : RoomMotion → RoomMotion) (hw :
    budgetWithin x u) :
    budgetWithin x (updRoomMotion n f u) := hw

@[simp] theorem setRoomState_within {x : Ctx} {u : Units} (n : Fin 6) (s : RoomState) (hw : budgetWithin x u) :
    budgetWithin x (setRoomState n s u) := hw

@[simp] theorem updJacks_within {x : Ctx} {u : Units} (f : Jacks → Jacks) (hw : budgetWithin x u) :
    budgetWithin x (updJacks f u) := hw

@[simp] theorem updJackMotion_within {x : Ctx} {u : Units} (f : JackMotion → JackMotion) (hw : budgetWithin x u) :
    budgetWithin x (updJackMotion f u) := hw

@[simp] theorem updAwning_within {x : Ctx} {u : Units} (f : Awning → Awning) (hw : budgetWithin x u) :
    budgetWithin x (updAwning f u) := hw

@[simp] theorem budgetAsk_within {u : Units} (x : Ctx) (k : Consumer) (hw : budgetWithin x u) :
    budgetWithin x (budgetAsk x k u).1 := by
  unfold budgetAsk
  by_cases ha : admitted u k = true
  · rw [if_pos ha]; exact hw
  rw [if_neg ha]
  by_cases hq : queued u k = true
  · rw [if_pos hq]; exact hw
  rw [if_neg hq]
  dsimp only
  have h1 : ∀ e ∈ u.admissions, e.consumer ≠ k := fun e he c => ha (List.any_eq_true.2 ⟨e, he, by simp [c]⟩)
  have h2 : ∀ e ∈ u.budgetQueue, e.consumer ≠ k := fun e he c => hq (List.any_eq_true.2 ⟨e, he, by simp [c]⟩)
  have h3 : k = .awning → allocation x k ≤ reserve x := fun e => e ▸ hw.2.2.2.2.2
  split
  · next c => exact join_within x k _ hw h1 h2 h3 (by simp only [Bool.and_eq_true] at c; exact c.1)
  · exact enqueue_within x k _ .request hw h1 h2 h3

@[simp] theorem budgetDrop_within {u : Units} (x : Ctx) (ks : List Consumer) (hw : budgetWithin x u) :
    budgetWithin x (budgetDrop ks u).1 := drop_within x hw List.filter_sublist List.filter_sublist

@[simp] theorem setClaim_within {x : Ctx} {u : Units} (g : Group) (c : Option Claim) (hw : budgetWithin x u) :
    budgetWithin x (setClaim g c u) := hw

@[simp] theorem clearMark_within {x : Ctx} {u : Units} (g : Group) (hw : budgetWithin x u) :
    budgetWithin x (clearMark g u) := hw

@[simp] theorem claimMotionLeft_within {x : Ctx} {u : Units} (g : Group) (hw : budgetWithin x u) :
    budgetWithin x (claimMotionLeft g u) := by
  unfold claimMotionLeft
  (repeat' split) <;> simp [hw]

@[simp] theorem grantGroups_within {u : Units} (x : Ctx) (l : Link) (gs : List Group) (hw : budgetWithin x u) :
    budgetWithin x (grantGroups x l gs u) := by
  unfold grantGroups
  (try dsimp only)
  (repeat' split) <;> first
    | exact hw
    | (simp (maxDischargeDepth := 40) [hw]; done)
    | (simp (maxDischargeDepth := 40) (contextual := true) [hw]; done)
    | (simp (maxDischargeDepth := 40) [*]; done)

@[simp] theorem absorbHeld_within {u : Units} (x : Ctx) (l : Link) (gs : List Group) (hw : budgetWithin x u) :
    budgetWithin x (absorbHeld x l gs u) := by
  unfold absorbHeld
  (try dsimp only)
  (repeat' split) <;> first
    | exact hw
    | (simp (maxDischargeDepth := 40) [hw]; done)
    | (simp (maxDischargeDepth := 40) (contextual := true) [hw]; done)
    | (simp (maxDischargeDepth := 40) [*]; done)

@[simp] theorem claimForMotion_within {u : Units} (x : Ctx) (q : Requester) (g : Group) (hw : budgetWithin x u) :
    budgetWithin x (claimForMotion x q g u) := by
  unfold claimForMotion
  (repeat' split) <;> simp [hw]

@[simp] theorem motionDone_within {u : Units} (x : Ctx) (g : Group) (q : Requester) (r : Route) (res : MotionResult)
    (hw : budgetWithin x u) :
    budgetWithin x (motionDone x g q r res u) := by
  unfold motionDone
  simp [hw]

/-! ## Drive -/

@[simp] theorem clearSync_within {x : Ctx} {u : Units} (n : Fin 6) (hw : budgetWithin x u) :
    budgetWithin x (clearSync n u) := hw

@[simp] theorem stopDrive_within {x : Ctx} {u : Units} (n : Fin 6) (hw : budgetWithin x u) :
    budgetWithin x (stopDrive n u) := hw

@[simp] theorem holdMotor_within {x : Ctx} {u : Units} (n : Fin 6) (e : RoomEnd) (hw : budgetWithin x u) :
    budgetWithin x (holdMotor n e u) := hw

@[simp] theorem pauseDrive_within {x : Ctx} {u : Units} (n : Fin 6) (hw : budgetWithin x u) :
    budgetWithin x (pauseDrive n u) := hw

@[simp] theorem startMotor_within {u : Units} (x : Ctx) (n : Fin 6) (e : RoomEnd) (d : MotorDir) (hw : budgetWithin x
    u) :
    budgetWithin x (startMotor x n e d u) := hw

@[simp] theorem startEnd_within {u : Units} (x : Ctx) (n : Fin 6) (m : RoomMotion) (resume : Bool) (e : RoomEnd) (hw
    : budgetWithin x u) :
    budgetWithin x (startEnd x n m resume u e) := by
  unfold startEnd
  simp [hw]

@[simp] theorem keepHeld_within {x : Ctx} {u : Units} (n : Fin 6) (hw : budgetWithin x u) :
    budgetWithin x (keepHeld n u) := by
  unfold keepHeld
  (repeat' split) <;> simp [hw]

@[simp] theorem startDrive_within {u : Units} (x : Ctx) (n : Fin 6) (m : RoomMotion) (hw :
    budgetWithin x u) :
    budgetWithin x (startDrive x n m u) := by
  unfold startDrive
  (try dsimp only)
  (repeat' split) <;> first
    | exact hw
    | (simp (maxDischargeDepth := 40) [hw]; done)
    | (simp (maxDischargeDepth := 40) (contextual := true) [hw]; done)
    | (simp (maxDischargeDepth := 40) [*]; done)

@[simp] theorem roomReady_within {u : Units} (x : Ctx) (n : Fin 6) (hw : budgetWithin x u) :
    budgetWithin x (roomReady x n u) := by
  unfold roomReady
  (try dsimp only)
  (repeat' split) <;> first
    | exact hw
    | (simp (maxDischargeDepth := 40) [hw]; done)
    | (simp (maxDischargeDepth := 40) (contextual := true) [hw]; done)
    | (simp (maxDischargeDepth := 40) [*]; done)

@[simp] theorem offerRoom_within {u : Units} (x : Ctx) (n : Fin 6) (b : NoticeBody) (hw : budgetWithin x u) :
    budgetWithin x (offerRoom x n b u) := by
  unfold offerRoom
  (repeat' split) <;> simp [hw]

@[simp] theorem roomResume_within {u : Units} (x : Ctx) (n : Fin 6) (hw : budgetWithin x u) :
    budgetWithin x (roomResume x n u) := by
  unfold roomResume
  (try dsimp only)
  (repeat' split) <;> first
    | exact hw
    | (simp (maxDischargeDepth := 40) [hw]; done)
    | (simp (maxDischargeDepth := 40) (contextual := true) [hw]; done)
    | (simp (maxDischargeDepth := 40) [*]; done)

@[simp] theorem enterPaused_within {u : Units} (x : Ctx) (n : Fin 6) (reason : PauseReason) (told : Bool) (hw : budgetWithin x u) :
    budgetWithin x (enterPaused x n reason told u) := by
  unfold enterPaused
  exact within_ite (offerRoom_within x n _ (setRoomState_within n .paused (updRoomMotion_within n _
      (pauseDrive_within n hw)))) (setRoomState_within n .paused (updRoomMotion_within n _ (pauseDrive_within n hw)))

@[simp] theorem driveJacks_within {x : Ctx} {u : Units} (v : JackValve) (pick : Fin 6 → Bool) (hw : budgetWithin x u)
    :
    budgetWithin x (driveJacks v pick u) := hw

@[simp] theorem setJackStep_within {x : Ctx} {u : Units} (st : JackStep) (s : JackSetState) (d : Option CoachTime)
    (hw : budgetWithin x u) :
    budgetWithin x (setJackStep st s d u) := hw

@[simp] theorem clearLift_within {x : Ctx} {u : Units} (hw : budgetWithin x u) :
    budgetWithin x (clearLift u) := hw

@[simp] theorem beginSeek_within {u : Units} (x : Ctx) (hw : budgetWithin x u) :
    budgetWithin x (beginSeek x u) := hw

@[simp] theorem beginReseek_within {u : Units} (x : Ctx) (hw : budgetWithin x u) :
    budgetWithin x (beginReseek x u) := hw

@[simp] theorem beginSettle_within {u : Units} (x : Ctx) (hw : budgetWithin x u) :
    budgetWithin x (beginSettle x u) := hw

@[simp] theorem beginJog_within {u : Units} (x : Ctx) (m : JackMotion) (hw : budgetWithin x u) :
    budgetWithin x (beginJog x m u) := hw

@[simp] theorem beginRetract_within {u : Units} (x : Ctx) (hw : budgetWithin x u) :
    budgetWithin x (beginRetract x u) := hw

@[simp] theorem offerJacks_within {u : Units} (x : Ctx) (b : NoticeBody) (hw : budgetWithin x u) :
    budgetWithin x (offerJacks x b u) := by
  unfold offerJacks
  (repeat' split) <;> simp [hw]

@[simp] theorem jackTurnOpen_within {u : Units} (x : Ctx) (hw : budgetWithin x u) :
    budgetWithin x (jackTurnOpen x u) := by
  unfold jackTurnOpen
  (repeat' split) <;> simp [hw]

@[simp] theorem jackPause_within {u : Units} (x : Ctx) (reason : PauseReason) (hw : budgetWithin x u) :
    budgetWithin x (jackPause x reason u) := by
  unfold jackPause
  (try dsimp only)
  (repeat' split) <;> first
    | exact hw
    | (simp (maxDischargeDepth := 40) [hw]; done)
    | (simp (maxDischargeDepth := 40) (contextual := true) [hw]; done)
    | (simp (maxDischargeDepth := 40) [*]; done)

@[simp] theorem roomTurnOpen_within {u : Units} (x : Ctx) (n : Fin 6) (hw : budgetWithin x u) :
    budgetWithin x (roomTurnOpen x n u) := by
  unfold roomTurnOpen
  (repeat' split) <;> simp [hw]

@[simp] theorem turnOpen_within {u : Units} (x : Ctx) (k : ManifoldUser) (hw : budgetWithin x u) :
    budgetWithin x (turnOpen x k u) := by
  unfold turnOpen
  (repeat' split) <;> simp [hw]

@[simp] theorem runTurn_within {u : Units} (x : Ctx) (hw : budgetWithin x u) :
    budgetWithin x (runTurn x u) := by
  unfold runTurn
  (try dsimp only)
  (repeat' split) <;> first
    | exact hw
    | (simp (maxDischargeDepth := 40) [hw]; done)
    | (simp (maxDischargeDepth := 40) (contextual := true) [hw]; done)
    | (simp (maxDischargeDepth := 40) [*]; done)

@[simp] theorem askPump_within {u : Units} (x : Ctx) (hw : budgetWithin x u) :
    budgetWithin x (askPump x u) := by
  unfold askPump
  dsimp only
  (repeat' split) <;> first | exact hw | simp [*]

@[simp] theorem beginTurn_within {u : Units} (x : Ctx) (k : ManifoldUser) (hw : budgetWithin x u) :
    budgetWithin x (beginTurn x k u) := by
  unfold beginTurn
  dsimp only
  (repeat' split) <;> first | exact hw | simp [*]

@[simp] theorem askTurn_within {u : Units} (x : Ctx) (k : ManifoldUser) (hw : budgetWithin x u) :
    budgetWithin x (askTurn x k u) := by
  unfold askTurn
  (repeat' split) <;> simp [hw]

@[simp] theorem nextTurn_within {u : Units} (x : Ctx) (hw : budgetWithin x u) :
    budgetWithin x (nextTurn x u) := by
  unfold nextTurn
  (repeat' split) <;> simp [hw]

@[simp] theorem setAwningStep_within {x : Ctx} {u : Units} (st : AwningStep) (d : Option CoachTime) (hw :
    budgetWithin x u) :
    budgetWithin x (setAwningStep st d u) := hw

@[simp] theorem startAwning_within {u : Units} (x : Ctx) (hw : budgetWithin x u) :
    budgetWithin x (startAwning x u) := by
  unfold startAwning
  dsimp only
  (repeat' split) <;> first | exact hw | simp [*]

@[simp] theorem offerAwning_within {u : Units} (x : Ctx) (b : NoticeBody) (hw : budgetWithin x u) :
    budgetWithin x (offerAwning x b u) := by
  unfold offerAwning
  (repeat' split) <;> simp [hw]

@[simp] theorem pinGranted_within {u : Units} (x : Ctx) (n : Fin 6) (hw : budgetWithin x u) :
    budgetWithin x (pinGranted x n u) := by
  unfold pinGranted
  (try dsimp only)
  (repeat' split) <;> first
    | exact hw
    | (simp (maxDischargeDepth := 40) [hw]; done)
    | (simp (maxDischargeDepth := 40) (contextual := true) [hw]; done)
    | (simp (maxDischargeDepth := 40) [*]; done)

@[simp] theorem driveGranted_within {u : Units} (x : Ctx) (n : Fin 6) (hw : budgetWithin x u) :
    budgetWithin x (driveGranted x n u) := by
  unfold driveGranted
  (repeat' split) <;> simp [hw]

@[simp] theorem awningGranted_within {u : Units} (x : Ctx) (shed : Bool) (hw : budgetWithin x u) :
    budgetWithin x (awningGranted x shed u) := by
  unfold awningGranted
  dsimp only
  (repeat' split) <;> first | exact hw | simp [*]

@[simp] theorem granted_within {u : Units} (x : Ctx) (w : BudgetWait) (hw : budgetWithin x u) :
    budgetWithin x (granted x w u) := by
  unfold granted
  (repeat' split) <;> simp [hw]

@[simp] theorem admitQueued_within {x : Ctx} {u : Units} (w : BudgetWait) (hw : budgetWithin x u) (hm : w ∈
    u.budgetQueue)
    (hf : fits x u w.consumer w.allocation = true) : budgetWithin x (admitQueued x w u) := by
  unfold admitQueued
  refine granted_within x w (join_within x _ _ (drop_within x hw (.refl _) List.filter_sublist) ?_ ?_ ?_ hf)
  · intro e he c
    exact not_both hw e he w hm c
  · intro e he c
    have := (List.mem_filter.1 he).2
    simp [c] at this
  · exact fun c => hw.2.2.2.2.1 w hm c

theorem queueHead_mem {u : Units} {w : BudgetWait} (h : queueHead u = some w) : w ∈ u.budgetQueue ∧ w.consumer ≠
    .awning := by
  unfold queueHead at h
  exact ⟨List.mem_of_find?_eq_some h, by simpa using List.find?_some h⟩

theorem admissible_fits {x : Ctx} {u : Units} {w : BudgetWait} (h : admissible x u w = true) :
    fits x u w.consumer w.allocation = true := by
  unfold admissible at h
  simp only [Bool.and_eq_true] at h
  exact h.1

@[simp] theorem passHeads_within (x : Ctx) : ∀ (fuel : Nat) {u : Units}, budgetWithin x u → budgetWithin x (passHeads
    x fuel u)
  | 0, _, h => h
  | fuel + 1, u, h => by
    unfold passHeads
    split
    · exact h
    · next w hq =>
      split
      · next c => exact passHeads_within x fuel (admitQueued_within w h (queueHead_mem hq).1 (admissible_fits c))
      · exact h

@[simp] theorem passAwning_within {u : Units} (x : Ctx) (hw : budgetWithin x u) : budgetWithin x (passAwning x u) :=
    by
  unfold passAwning
  split
  · next w hq =>
    split
    · next c => exact admitQueued_within w hw (List.mem_of_find?_eq_some hq) (admissible_fits c)
    · exact hw
  · exact hw

@[simp] theorem admissionPass_within {u : Units} (x : Ctx) (hw : budgetWithin x u) :
    budgetWithin x (admissionPass x u) := by
  unfold admissionPass
  (repeat' split) <;> simp [hw]

@[simp] theorem giveUp_within {u : Units} (x : Ctx) (ks : List Consumer) (hw : budgetWithin x u) :
    budgetWithin x (giveUp x ks u) := by
  unfold giveUp
  dsimp only
  (repeat' split) <;> first | exact hw | simp [*]

@[simp] theorem turnEnd_within {u : Units} (x : Ctx) (hw : budgetWithin x u) :
    budgetWithin x (turnEnd x u) := by
  unfold turnEnd
  (try dsimp only)
  (repeat' split) <;> first
    | exact hw
    | (simp (maxDischargeDepth := 40) [hw]; done)
    | (simp (maxDischargeDepth := 40) (contextual := true) [hw]; done)
    | (simp (maxDischargeDepth := 40) [*]; done)

@[simp] theorem leaveManifold_within {u : Units} (x : Ctx) (k : ManifoldUser) (hw : budgetWithin x u) :
    budgetWithin x (leaveManifold x k u) := by
  unfold leaveManifold
  simp [hw]

@[simp] theorem shedEffect_within {u : Units} (x : Ctx) (k : Consumer) (told : Bool) (hw : budgetWithin x u) :
    budgetWithin x (shedEffect x k told u) := by
  unfold shedEffect
  (try dsimp only)
  (repeat' split) <;> first
    | exact hw
    | (simp (maxDischargeDepth := 40) [hw]; done)
    | (simp (maxDischargeDepth := 40) (contextual := true) [hw]; done)
    | (simp (maxDischargeDepth := 40) [*]; done)

/-- What a shed needs and keeps of the budget, whatever the limit is. -/
def budgetOnce (x : Ctx) (u : Units) : Prop :=
  (u.admissions.map (·.consumer) ++ u.budgetQueue.map (·.consumer)).Nodup
  ∧ (∀ a ∈ u.admissions, a.consumer = .awning → a.allocation ≤ reserve x)
  ∧ (∀ w ∈ u.budgetQueue, w.consumer = .awning → w.allocation ≤ reserve x) ∧ allocation x .awning ≤ reserve x

theorem once_of_within {x : Ctx} {u : Units} (h : budgetWithin x u) : budgetOnce x u := ⟨h.1, h.2.2.2.1, h.2.2.2.2.1,
    h.2.2.2.2.2⟩

theorem budgetOnce.within {x : Ctx} {u : Units} (h : budgetOnce x u) (h1 : nonAwningSum u.admissions ≤ nonAwningBound
    x)
    (h2 : totalSum u.admissions ≤ x.m.bLim) : budgetWithin x u := ⟨h.1, h1, h2, h.2.1, h.2.2.1, h.2.2.2⟩

/-- The budget collections as they were. -/
def SameBudget (u v : Units) : Prop := v.admissions = u.admissions ∧ v.budgetQueue = u.budgetQueue

theorem SameBudget.trans {a b c : Units} (h : SameBudget a b) (k : SameBudget b c) : SameBudget a c := ⟨k.1.trans
    h.1, k.2.trans h.2⟩

theorem SameBudget.within {x : Ctx} {u v : Units} (h : SameBudget u v) (k : budgetWithin x u) : budgetWithin x v := by
  unfold budgetWithin; rw [h.1, h.2]; exact k
theorem SameBudget.once {x : Ctx} {u v : Units} (h : SameBudget u v) (k : budgetOnce x u) : budgetOnce x v := by
  unfold budgetOnce; rw [h.1, h.2]; exact k

theorem offerTo_sameBudget (x : Ctx) (l : Link) (b : NoticeBody) (u : Units) : SameBudget u (offerTo x l b u) := by
  unfold offerTo; split <;> exact ⟨rfl, rfl⟩
theorem offerAll_sameBudget (x : Ctx) (b : NoticeBody) (u : Units) : SameBudget u (offerAll x b u) :=
  ((offerTo_sameBudget x .ml0 b u).trans (offerTo_sameBudget x .ml1 b _)).trans (offerTo_sameBudget x .ml2 b _)
theorem offerLeast_sameBudget (x : Ctx) (b : NoticeBody) (u : Units) : SameBudget u (offerLeast x b u) := by
  unfold offerLeast; split
  · exact offerTo_sameBudget _ _ _ _
  · exact offerAll_sameBudget _ _ _
theorem offerRoute_sameBudget (x : Ctx) (r : Route) (b : NoticeBody) (u : Units) : SameBudget u (offerRoute x r b u)
    := by
  unfold offerRoute; split
  · exact offerLeast_sameBudget _ _ _
  · dsimp only
    have h (c : Bool) (l : Link) (v : Units) : SameBudget v (if c = true then offerTo x l b v else v) := by
      split
      · exact offerTo_sameBudget _ _ _ _
      · exact ⟨rfl, rfl⟩
    exact ((h _ .ml0 u).trans (h _ .ml1 _)).trans (h _ .ml2 _)
theorem offerMotion_sameBudget (x : Ctx) (q : Requester) (r : Route) (b : NoticeBody) (u : Units) : SameBudget u
    (offerMotion x q r b u) := by
  unfold offerMotion; split
  · exact offerTo_sameBudget _ _ _ _
  · exact offerRoute_sameBudget _ _ _ _
theorem offerHolder_sameBudget (x : Ctx) (g : Group) (b : NoticeBody) (u : Units) : SameBudget u (offerHolder x g b
    u) := by
  unfold offerHolder; split
  · exact offerTo_sameBudget _ _ _ _
  · exact offerLeast_sameBudget _ _ _
theorem offerRoom_sameBudget (x : Ctx) (n : Fin 6) (b : NoticeBody) (u : Units) : SameBudget u (offerRoom x n b u) :=
    by
  unfold offerRoom; split
  · exact offerMotion_sameBudget _ _ _ _ _
  · exact ⟨rfl, rfl⟩
theorem enterPaused_sameBudget (x : Ctx) (n : Fin 6) (r : PauseReason) (told : Bool) (u : Units) :
    SameBudget u (enterPaused x n r told u) := by
  unfold enterPaused
  dsimp only
  have h1 : SameBudget u (pauseDrive n u) := by
    have a (e : RoomEnd) (v : Units) : SameBudget v (holdMotor n e v) := ⟨rfl, rfl⟩
    have b (v : Units) : SameBudget v (clearSync n (writeRoomValve n .off v)) := ⟨rfl, rfl⟩
    exact ((a .a u).trans (a .b _)).trans (b _)
  have h2 (f : RoomMotion → RoomMotion) (v : Units) : SameBudget v (setRoomState n .paused (updRoomMotion n f v)) :=
      ⟨rfl, rfl⟩
  have h := h1.trans (h2 (fun m => { m with step := .pause, lostPin := m.lostPin || m.step == .pinWait }) _)
  split
  · exact h.trans (offerRoom_sameBudget _ _ _ _)
  · exact h
theorem writePump_sameBudget (x : Ctx) (on : Bool) (u : Units) : SameBudget u (writePump x on u) := by
  unfold writePump; split <;> exact ⟨rfl, rfl⟩
theorem jackPause_sameBudget (x : Ctx) (r : PauseReason) (u : Units) : SameBudget u (jackPause x r u) := by
  unfold jackPause; split
  · exact ⟨rfl, rfl⟩
  · exact SameBudget.trans ⟨rfl, rfl⟩ (offerMotion_sameBudget _ _ _ _ _)
theorem offerAwning_sameBudget (x : Ctx) (b : NoticeBody) (u : Units) : SameBudget u (offerAwning x b u) := by
  unfold offerAwning; split
  · exact offerHolder_sameBudget _ _ _ _
  · exact offerMotion_sameBudget _ _ _ _ _
  · exact ⟨rfl, rfl⟩

/-- A shed's effect leaves the budget collections as they are. -/
theorem shedEffect_sameBudget (x : Ctx) (k : Consumer) (told : Bool) (u : Units) :
    SameBudget u (shedEffect x k told u) := by
  unfold shedEffect
  split
  · exact SameBudget.trans (b := updRoomMotion _ _ u) ⟨rfl, rfl⟩ (enterPaused_sameBudget _ _ _ _ _)
  · dsimp only
    split
    · exact SameBudget.trans (b := updRoomMotion _ _ (writePin _ false u)) ⟨rfl, rfl⟩ (offerRoom_sameBudget _ _ _ _)
    · exact SameBudget.trans (b := updRoomMotion _ _ (writePin _ false u)) ⟨rfl, rfl⟩ (enterPaused_sameBudget _ _ _ _ _)
  · dsimp only
    have h : SameBudget u (updManifold (writePump x false u) fun f => { f with state := .awaitBudget }) :=
        writePump_sameBudget x false u
    split
    · exact h.trans (SameBudget.trans (b := updRoomMotion _ _ (updManifold (writePump x false u) fun f => { f with
        state := .awaitBudget })) ⟨rfl, rfl⟩ (enterPaused_sameBudget _ _ _ _ _))
    · exact h.trans (jackPause_sameBudget _ _ _)
    · exact h
  · exact SameBudget.trans (b := writeAwningMotor _ u) ⟨rfl, rfl⟩ (offerAwning_sameBudget _ _ _)

/-- A shed moves its consumer from the admission list to the tail of the queue. -/
theorem shed_collections (x : Ctx) (a : Admission) (cause : WaitCause) (told : List Group) (u : Units) :
    SameBudget (enqueue x a.consumer a.allocation cause { u with admissions := u.admissions.filter fun b =>
        b.consumer != a.consumer })
      (shed x a cause told u) := shedEffect_sameBudget _ _ _ _

theorem shed_once {x : Ctx} {u : Units} {a : Admission} (cause : WaitCause) (told : List Group)
    (ha : a ∈ u.admissions) (h : budgetOnce x u) :
    budgetOnce x (shed x a cause told u) := by
  refine (shed_collections x a cause told u).once ?_
  have hsub : (u.admissions.filter fun b => b.consumer != a.consumer).Sublist u.admissions := List.filter_sublist
  refine ⟨?_, fun b hb => h.2.1 b (hsub.subset hb), ?_, h.2.2.2⟩
  · have hq := h.1
    unfold enqueue
    simp only [List.map_append, List.map_cons, List.map_nil]
    rw [← List.append_assoc, List.nodup_append]
    refine ⟨((hsub.map _).append (.refl _)).nodup hq, List.nodup_singleton _, ?_⟩
    intro c hc d hd e
    simp only [List.mem_singleton] at hd
    subst hd; subst e
    rcases List.mem_append.1 hc with m | m <;> obtain ⟨e, he, hk⟩ := List.mem_map.1 m
    · have := (List.mem_filter.1 he).2
      simp [hk] at this
    · exact (List.nodup_append.1 hq).2.2 _ (List.mem_map_of_mem ha) _ (List.mem_map_of_mem he) hk.symm
  · intro w hw
    unfold enqueue at hw
    rcases List.mem_append.1 hw with m | m
    · exact h.2.2.1 w m
    · simp only [List.mem_singleton] at m; subst m; exact h.2.1 a ha

theorem shed_admissions (x : Ctx) (a : Admission) (cause : WaitCause) (told : List Group) (u : Units) :
    (shed x a cause told u).admissions = u.admissions.filter fun b => b.consumer != a.consumer := (shed_collections x a
        cause told u).1

theorem shed_within {x : Ctx} {u : Units} {a : Admission} (cause : WaitCause) (told : List Group)
    (ha : a ∈ u.admissions) (h : budgetWithin x u) :
    budgetWithin x (shed x a cause told u) := by
  refine (shed_once cause told ha (once_of_within h)).within ?_ ?_
  · rw [shed_admissions]
    exact (sum_sublist (List.filter_sublist.filter _)).trans h.2.1
  · rw [shed_admissions]
    exact (sum_sublist List.filter_sublist).trans h.2.2.1

theorem newest_mem {u : Units} {a : Admission} (h : newestNonAwning u = some a) : a ∈ u.admissions ∧ a.consumer ≠
    .awning := by
  unfold newestNonAwning at h
  exact ⟨List.mem_reverse.1 (List.mem_of_find?_eq_some h), by simpa using List.find?_some h⟩

theorem shedToBound_once (x : Ctx) : ∀ (fuel : Nat) (told : List Group) {u : Units}, budgetOnce x u →
    budgetOnce x (shedToBound x fuel told u)
  | 0, _, _, h => h
  | fuel + 1, _, u, h => by
    unfold shedToBound
    split
    · exact h
    split
    · next a ha => exact shedToBound_once x fuel _ (shed_once _ _ (newest_mem ha).1 h)
    · exact h

theorem shedToBound_bound (x : Ctx) : ∀ (fuel : Nat) (told : List Group) {u : Units},
    (u.admissions.filter fun a => a.consumer != .awning).length ≤ fuel →
    nonAwningSum (shedToBound x fuel told u).admissions ≤ nonAwningBound x
  | 0, _, u, h => by
    have : (u.admissions.filter fun a => a.consumer != .awning) = [] := List.length_eq_zero_iff.1 (Nat.le_zero.1 h)
    show nonAwningSum u.admissions ≤ _
    unfold nonAwningSum totalSum
    rw [this]
    exact Nat.zero_le _
  | fuel + 1, _, u, h => by
    unfold shedToBound
    split
    · next c => exact c
    split
    · next a ha =>
      refine shedToBound_bound x fuel _ ?_
      rw [shed_admissions]
      have ⟨hm, hn⟩ := newest_mem ha
      have hlt : ((u.admissions.filter fun b => b.consumer != a.consumer).filter fun a => a.consumer !=
          Consumer.awning).length
          < (u.admissions.filter fun a => a.consumer != Consumer.awning).length := by
        rw [List.filter_filter]
        have : (u.admissions.filter fun b => b.consumer != .awning && b.consumer != a.consumer)
            = ((u.admissions.filter fun b => b.consumer != .awning).filter fun b => b.consumer != a.consumer) := by
          rw [List.filter_filter]; congr 1; funext b; exact Bool.and_comm _ _
        rw [this]
        rw [List.length_filter_lt_length_iff_exists]
        exact ⟨a, List.mem_filter.2 ⟨hm, by simpa using hn⟩, by simp⟩
      omega
    · next hn =>
      have : (u.admissions.filter fun a => a.consumer != .awning) = [] := by
        rw [List.filter_eq_nil_iff]
        intro a ha
        unfold newestNonAwning at hn
        have := List.find?_eq_none.1 hn a (List.mem_reverse.2 ha)
        exact this
      unfold nonAwningSum totalSum
      rw [this]
      exact Nat.zero_le _

def consumerIdx : Consumer → Fin 14
  | .pump => 0
  | .drive n => ⟨1 + n.val, by omega⟩
  | .pin n => ⟨7 + n.val, by omega⟩
  | .awning => 13

theorem consumerIdx_inj {a b : Consumer} (h : consumerIdx a = consumerIdx b) : a = b := by
  have h := congrArg Fin.val h
  cases a <;> cases b <;> simp only [consumerIdx, Consumer.drive.injEq, Consumer.pin.injEq, Fin.ext_iff,
      reduceCtorEq] at h ⊢ <;> omega

theorem nodup_consumers (l : List Consumer) (h : l.Nodup) : l.length ≤ 14 := by
  have h2 : (l.map consumerIdx).Nodup := h.map_on fun a _ b _ e => consumerIdx_inj e
  have := h2.length_le_card
  simpa using this

theorem shedToLimit_within {x : Ctx} {u : Units} (h : budgetOnce x u) : budgetWithin x (shedToLimit x u) := by
  have h1 := shedToBound_once x 14 [] h
  have h2 : nonAwningSum (shedToBound x 14 [] u).admissions ≤ nonAwningBound x := by
    refine shedToBound_bound x 14 [] ?_
    refine (List.length_filter_le _ _).trans ?_
    have := nodup_consumers _ (List.nodup_append.1 h.1).1
    simpa using this
  unfold shedToLimit
  dsimp only
  split
  · next c => exact h1.within h2 c
  · split
    · next a ha =>
      have hm := List.mem_of_find?_eq_some ha
      have hk : a.consumer = .awning := by simpa using List.find?_some ha
      refine (shed_once _ _ hm h1).within ?_ ?_
      · rw [shed_admissions]; exact (sum_sublist (List.filter_sublist.filter _)).trans h2
      · rw [shed_admissions, hk]
        refine (show totalSum _ ≤ nonAwningBound x from h2).trans ?_
        exact Nat.sub_le _ _
    · next c _ hn =>
      exfalso
      have : ((shedToBound x 14 [] u).admissions.filter fun a => a.consumer != .awning) = (shedToBound x 14 []
          u).admissions := by
        rw [List.filter_eq_self]
        intro a ha
        have := List.find?_eq_none.1 hn a ha
        simpa using this
      unfold nonAwningSum at h2
      rw [this] at h2
      exact c (h2.trans (Nat.sub_le _ _))

/-- Whatever the limit became, the sheds or the pass leave the admissions within it. -/
theorem applyLimit_within {x : Ctx} {u : Units} (hx : x.running = true) (h : budgetOnce x u) : budgetWithin x
    (applyLimit x u) := by
  unfold applyLimit
  rw [hx]
  simp only [Bool.not_true, Bool.false_eq_true, if_false]
  split
  · next c =>
    unfold withinLimit at c
    simp only [Bool.and_eq_true, decide_eq_true_eq] at c
    exact admissionPass_within x (h.within c.1 c.2)
  · exact shedToLimit_within h

@[simp] theorem confirmOverload_within {u : Units} (v : Int) (x : Ctx) (hw : budgetWithin x u) : budgetWithin x
    (confirmOverload v x u) := by
  unfold confirmOverload
  dsimp only
  refine offerAll_within x _ (within_overload _ ?_)
  split
  · next a ha => exact shed_within _ _ (newest_mem ha).1 hw
  · exact hw

@[simp] theorem checkOverload_within {u : Units} (v : Int) (x : Ctx) (hw : budgetWithin x u) : budgetWithin x
    (checkOverload v x u) := by
  unfold checkOverload
  dsimp only
  repeat' split
  · exact hw
  · exact confirmOverload_within v x hw
  · exact hw
  · exact hw

@[simp] theorem driveRequest_within {u : Units} (x : Ctx) (n : Fin 6) (hw : budgetWithin x u) :
    budgetWithin x (driveRequest x n u) := by
  unfold driveRequest
  (try dsimp only)
  (repeat' split) <;> first
    | exact hw
    | (simp (maxDischargeDepth := 40) [hw]; done)
    | (simp (maxDischargeDepth := 40) (contextual := true) [hw]; done)
    | (simp (maxDischargeDepth := 40) [*]; done)

@[simp] theorem pinWithdraw_within {u : Units} (x : Ctx) (n : Fin 6) (hw : budgetWithin x u) :
    budgetWithin x (pinWithdraw x n u) := by
  unfold pinWithdraw
  (try dsimp only)
  (repeat' split) <;> first
    | exact hw
    | (simp (maxDischargeDepth := 40) [hw]; done)
    | (simp (maxDischargeDepth := 40) (contextual := true) [hw]; done)
    | (simp (maxDischargeDepth := 40) [*]; done)

@[simp] theorem pinEngage_within {u : Units} (x : Ctx) (n : Fin 6) (pending : Option MotionResult) (hw : budgetWithin
    x u) :
    budgetWithin x (pinEngage x n pending u) := hw

@[simp] theorem beginSequence_within {u : Units} (x : Ctx) (n : Fin 6) (d : Direction) (hw : budgetWithin x u) :
    budgetWithin x (beginSequence x n d u) := by
  unfold beginSequence
  (repeat' split) <;> simp [hw]

@[simp] theorem pinWithdrawn_within {u : Units} (x : Ctx) (n : Fin 6) (hw : budgetWithin x u) :
    budgetWithin x (pinWithdrawn x n u) := by
  unfold pinWithdrawn
  (repeat' split) <;> simp [hw]

/-! ## MotionEnd -/

@[simp] theorem dropRoomMotion_within {x : Ctx} {u : Units} (n : Fin 6) (hw : budgetWithin x u) :
    budgetWithin x (dropRoomMotion n u) := hw

@[simp] theorem roomOutputsOff_within {x : Ctx} {u : Units} (n : Fin 6) (hw : budgetWithin x u) :
    budgetWithin x (roomOutputsOff n u) := writePin_within n false (stopDrive_within n hw)

@[simp] theorem roomRelease_within {u : Units} (x : Ctx) (n : Fin 6) (hw : budgetWithin x u) :
    budgetWithin x (roomRelease x n u) := by
  unfold roomRelease
  simp [hw]

@[simp] theorem endRoom_within {u : Units} (x : Ctx) (n : Fin 6) (res : MotionResult) (st : RoomState) (hw :
    budgetWithin x u) :
    budgetWithin x (endRoom x n res st u) := by
  unfold endRoom
  (try dsimp only)
  (repeat' split) <;> first
    | exact hw
    | (simp (maxDischargeDepth := 40) [hw]; done)
    | (simp (maxDischargeDepth := 40) (contextual := true) [hw]; done)
    | (simp (maxDischargeDepth := 40) [*]; done)

@[simp] theorem roomStopProcedure_within {u : Units} (x : Ctx) (n : Fin 6) (res : MotionResult) (hw : budgetWithin x
    u) :
    budgetWithin x (roomStopProcedure x n res u) := by
  unfold roomStopProcedure
  (try dsimp only)
  (repeat' split) <;> first
    | exact hw
    | (simp (maxDischargeDepth := 40) [hw]; done)
    | (simp (maxDischargeDepth := 40) (contextual := true) [hw]; done)
    | (simp (maxDischargeDepth := 40) [*]; done)

@[simp] theorem dropJackMotion_within {x : Ctx} {u : Units} (st : JackSetState) (hw : budgetWithin x u) :
    budgetWithin x (dropJackMotion st u) := hw

@[simp] theorem endJacks_within {u : Units} (x : Ctx) (res : MotionResult) (st : JackSetState) (hw : budgetWithin x
    u) :
    budgetWithin x (endJacks x res st u) := by
  unfold endJacks
  (try dsimp only)
  (repeat' split) <;> first
    | exact hw
    | (simp (maxDischargeDepth := 40) [hw]; done)
    | (simp (maxDischargeDepth := 40) (contextual := true) [hw]; done)
    | (simp (maxDischargeDepth := 40) [*]; done)

@[simp] theorem endAwning_within {u : Units} (x : Ctx) (res : MotionResult) (st : AwningState) (hw : budgetWithin x
    u) :
    budgetWithin x (endAwning x res st u) := by
  unfold endAwning
  (try dsimp only)
  (repeat' split) <;> first
    | exact hw
    | (simp (maxDischargeDepth := 40) [hw]; done)
    | (simp (maxDischargeDepth := 40) (contextual := true) [hw]; done)
    | (simp (maxDischargeDepth := 40) [*]; done)

@[simp] theorem endRetract_within {u : Units} (x : Ctx) (completed : Bool) (st : AwningState) (hw : budgetWithin x u)
    :
    budgetWithin x (endRetract x completed st u) := by
  unfold endRetract
  (try dsimp only)
  (repeat' split) <;> first
    | exact hw
    | (simp (maxDischargeDepth := 40) [hw]; done)
    | (simp (maxDischargeDepth := 40) (contextual := true) [hw]; done)
    | (simp (maxDischargeDepth := 40) [*]; done)

@[simp] theorem stopMotion_within {u : Units} (x : Ctx) (g : Group) (res : MotionResult) (hw : budgetWithin x u) :
    budgetWithin x (stopMotion x g res u) := by
  unfold stopMotion
  (repeat' split) <;> simp [hw]

@[simp] theorem abortMotion_within {u : Units} (x : Ctx) (res : MotionResult) (g : Group) (hw : budgetWithin x u) :
    budgetWithin x (abortMotion x res u g) := by
  unfold abortMotion
  (repeat' split) <;> simp [hw]

@[simp] theorem detach_within {x : Ctx} {u : Units} (gs : List Group) (hw : budgetWithin x u) : budgetWithin x
    (detach gs u).1 :=
  drop_within x hw (.refl _) List.filter_sublist

@[simp] theorem endAll_within {u : Units} (x : Ctx) (gs : List Group) (f : Units → Group → Units)
    (hf : ∀ v g, budgetWithin x v → budgetWithin x (f v g)) (hw : budgetWithin x u) : budgetWithin x (endAll x gs f
        u) := by
  unfold endAll
  dsimp only
  have h := foldl_within f hf gs (detach_within gs hw)
  split
  · exact admissionPass_within x h
  · exact h

@[simp] theorem abortAll_within {u : Units} (x : Ctx) (res : MotionResult) (hw : budgetWithin x u) :
    budgetWithin x (abortAll x res u) := by
  unfold abortAll
  (try dsimp only)
  (repeat' split) <;> first
    | exact hw
    | (simp (maxDischargeDepth := 40) [hw]; done)
    | (simp (maxDischargeDepth := 40) (contextual := true) [hw]; done)
    | (simp (maxDischargeDepth := 40) [*]; done)

/-! ## Halts -/

@[simp] theorem setFault_within {x : Ctx} {u : Units} (s : Subject) (r : FaultRecord) (hw : budgetWithin x u) :
    budgetWithin x (setFault s r u) := hw

@[simp] theorem clearPresent_within {x : Ctx} {u : Units} (s : Subject) (k : FaultCode) (hw : budgetWithin x u) :
    budgetWithin x (clearPresent s k u) := hw

@[simp] theorem unconfirmFlight_within {x : Ctx} {u : Units} (s : Subject) (hw : budgetWithin x u) :
    budgetWithin x (unconfirmFlight s u) := hw

@[simp] theorem answerStillActive_within {u : Units} (x : Ctx) (pick : HeldClear → Bool) (hw : budgetWithin x u) :
    budgetWithin x (answerStillActive x pick u) := by
  unfold answerStillActive
  (try dsimp only)
  (repeat' split) <;> first
    | exact hw
    | (simp (maxDischargeDepth := 40) [hw]; done)
    | (simp (maxDischargeDepth := 40) (contextual := true) [hw]; done)
    | (simp (maxDischargeDepth := 40) [*]; done)

@[simp] theorem haltGroup_within {u : Units} (x : Ctx) (g : Group) (hw : budgetWithin x u) :
    budgetWithin x (haltGroup x g u) := by
  unfold haltGroup
  (try dsimp only)
  (repeat' split) <;> first
    | exact hw
    | (simp (maxDischargeDepth := 40) [hw]; done)
    | (simp (maxDischargeDepth := 40) (contextual := true) [hw]; done)
    | (simp (maxDischargeDepth := 40) [*]; done)

@[simp] theorem haltB_within {u : Units} (x : Ctx) (g : Group) (k : FaultCode) (d : Detail) (hw : budgetWithin x u) :
    budgetWithin x (haltB x g k d u) := by
  unfold haltB
  (repeat' split) <;> simp [hw]

@[simp] theorem settleGroups_within {u : Units} (x : Ctx) (hw : budgetWithin x u) :
    budgetWithin x (settleGroups x u) := by
  unfold settleGroups
  (try dsimp only)
  (repeat' split) <;> first
    | exact hw
    | (simp (maxDischargeDepth := 40) [hw]; done)
    | (simp (maxDischargeDepth := 40) (contextual := true) [hw]; done)
    | (simp (maxDischargeDepth := 40) [*]; done)

@[simp] theorem dropEverything_within {u : Units} (x : Ctx) (hw : budgetWithin x u) : budgetWithin x (dropEverything
    x u) :=
  drop_within x hw (List.nil_sublist _) (List.nil_sublist _)

@[simp] theorem haltA_within {u : Units} (x : Ctx) (hw : budgetWithin x u) :
    budgetWithin x (haltA x u) := by
  unfold haltA
  (try dsimp only)
  (repeat' split) <;> first
    | exact hw
    | (simp (maxDischargeDepth := 40) [hw]; done)
    | (simp (maxDischargeDepth := 40) (contextual := true) [hw]; done)
    | (simp (maxDischargeDepth := 40) [*]; done)

@[simp] theorem raise_within {u : Units} (x : Ctx) (s : Subject) (k : FaultCode) (d : Detail) (hw : budgetWithin x u)
    :
    budgetWithin x (raise x s k d u) := by
  unfold raise
  (try dsimp only)
  (repeat' split) <;> first
    | exact hw
    | (simp (maxDischargeDepth := 40) [hw]; done)
    | (simp (maxDischargeDepth := 40) (contextual := true) [hw]; done)
    | (simp (maxDischargeDepth := 40) [*]; done)

@[simp] theorem raiseGroup_within {u : Units} (x : Ctx) (g : Group) (k : FaultCode) (d : Detail) (hw : budgetWithin x
    u) :
    budgetWithin x (raiseGroup x g k d u) := by
  unfold raiseGroup
  simp [hw]

@[simp] theorem trackCondition_within {u : Units} (x : Ctx) (s : Subject) (k : FaultCode) (d : Detail) (condition :
    Bool) (hw : budgetWithin x u) :
    budgetWithin x (trackCondition x s k d condition u) := by
  unfold trackCondition
  (repeat' split) <;> simp [hw]

@[simp] theorem raiseTrip_within {u : Units} (x : Ctx) (k : Fin 33) (hw : budgetWithin x u) :
    budgetWithin x (raiseTrip x k u) := by
  unfold raiseTrip
  (repeat' split) <;> simp [hw]

@[simp] theorem leaveFault_within {u : Units} (x : Ctx) (g : Group) (hw : budgetWithin x u) :
    budgetWithin x (leaveFault x g u) := by
  unfold leaveFault
  (repeat' split) <;> simp [hw]

@[simp] theorem clearRecord_within {u : Units} (x : Ctx) (s : Subject) (l : Link) (hw : budgetWithin x u) :
    budgetWithin x (clearRecord x s l u) := by
  unfold clearRecord
  (try dsimp only)
  (repeat' split) <;> first
    | exact hw
    | (simp (maxDischargeDepth := 40) [hw]; done)
    | (simp (maxDischargeDepth := 40) (contextual := true) [hw]; done)
    | (simp (maxDischargeDepth := 40) [*]; done)

@[simp] theorem settleRecords_within {x : Ctx} {u : Units} (hw : budgetWithin x u) :
    budgetWithin x (settleRecords u) := hw

/-! ## Claims -/

@[simp] theorem setPending_within {x : Ctx} {u : Units} (n : Fin 6) (res : Option MotionResult) (hw : budgetWithin x
    u) :
    budgetWithin x (setPending n res u) := hw

@[simp] theorem stopForLink_within {u : Units} (x : Ctx) (res : MotionResult) (g : Group) (hw : budgetWithin x u) :
    budgetWithin x (stopForLink x res g u) := by
  unfold stopForLink
  (repeat' split) <;> simp [hw]

@[simp] theorem setMark_within {x : Ctx} {u : Units} (g : Group) (hw : budgetWithin x u) :
    budgetWithin x (setMark g u) := hw

@[simp] theorem releaseGroup_within {u : Units} (x : Ctx) (l : Link) (res : MotionResult) (g : Group) (hw :
    budgetWithin x u) :
    budgetWithin x (releaseGroup x l res u g) := by
  unfold releaseGroup
  dsimp only
  (repeat' split) <;> first | exact hw | simp [*]

@[simp] theorem releaseAll_within {u : Units} (x : Ctx) (l : Link) (res : MotionResult) (gs : List Group) (hw :
    budgetWithin x u) :
    budgetWithin x (releaseAll x l res gs u) := by
  unfold releaseAll
  (try dsimp only)
  (repeat' split) <;> first
    | exact hw
    | (simp (maxDischargeDepth := 40) [hw]; done)
    | (simp (maxDischargeDepth := 40) (contextual := true) [hw]; done)
    | (simp (maxDischargeDepth := 40) [*]; done)

@[simp] theorem grantEntry_within {u : Units} (x : Ctx) (i : Nat) (e : WaitEntry) (hw : budgetWithin x u) :
    budgetWithin x (grantEntry x i e u) := by
  unfold grantEntry
  (try dsimp only)
  (repeat' split) <;> first
    | exact hw
    | (simp (maxDischargeDepth := 40) [hw]; done)
    | (simp (maxDischargeDepth := 40) (contextual := true) [hw]; done)
    | (simp (maxDischargeDepth := 40) [*]; done)

@[simp] theorem walkFrom_within (x : Ctx) : ∀ (fuel i : Nat) {u : Units}, budgetWithin x u → budgetWithin x (walkFrom
    x fuel i u)
  | 0, _, _, h => h
  | fuel + 1, i, u, h => by
    unfold walkFrom
    repeat' split
    · exact h
    · exact walkFrom_within x fuel _ (grantEntry_within _ _ _ h)
    · exact walkFrom_within x fuel _ h

@[simp] theorem grantWalk_within {u : Units} (x : Ctx) (hw : budgetWithin x u) :
    budgetWithin x (grantWalk x u) := by
  unfold grantWalk
  simp [hw]

@[simp] theorem offerLost_within {u : Units} (x : Ctx) (e : WaitEntry) (u0 : Units) (k : Link) (hw : budgetWithin x
    u) :
    budgetWithin x (offerLost x e u0 u k) := by
  unfold offerLost
  simp [hw]

@[simp] theorem testPreemption_within {u : Units} (x : Ctx) (i : Nat) (e : WaitEntry) (hw : budgetWithin x u) :
    budgetWithin x (testPreemption x i e u) := by
  unfold testPreemption
  (try dsimp only)
  (repeat' split) <;> first
    | exact hw
    | (simp (maxDischargeDepth := 40) [hw]; done)
    | (simp (maxDischargeDepth := 40) (contextual := true) [hw]; done)
    | (simp (maxDischargeDepth := 40) [*]; done)

@[simp] theorem testsFrom_within (x : Ctx) (fresh : List Group) :
    ∀ (fuel i : Nat) {u : Units}, budgetWithin x u → budgetWithin x (testsFrom x fresh fuel i u)
  | 0, _, _, h => h
  | fuel + 1, i, u, h => by
    unfold testsFrom
    repeat' split
    · exact h
    · exact testsFrom_within x fresh fuel _ (testPreemption_within _ _ _ h)
    · exact testsFrom_within x fresh fuel _ h

@[simp] theorem settleClaims_within {u : Units} (x : Ctx) (u0 : Units) (hw : budgetWithin x u) :
    budgetWithin x (settleClaims x u0 u) := by
  unfold settleClaims
  dsimp only
  (repeat' split) <;> first | exact hw | simp [*]

@[simp] theorem emptyWaitList_within {u : Units} (x : Ctx) (hw : budgetWithin x u) :
    budgetWithin x (emptyWaitList x u) := by
  unfold emptyWaitList
  (try dsimp only)
  (repeat' split) <;> first
    | exact hw
    | (simp (maxDischargeDepth := 40) [hw]; done)
    | (simp (maxDischargeDepth := 40) (contextual := true) [hw]; done)
    | (simp (maxDischargeDepth := 40) [*]; done)

/-! ## RoomRequests -/

@[simp] theorem startRoom_within {u : Units} (x : Ctx) (n : Fin 6) (a : Asker) (d : Direction) (mode : Mode) (target
    : Option Int) (hw : budgetWithin x u) :
    budgetWithin x (startRoom x n a d mode target u) := by
  unfold startRoom
  (try dsimp only)
  (repeat' split) <;> first
    | exact hw
    | (simp (maxDischargeDepth := 40) [hw]; done)
    | (simp (maxDischargeDepth := 40) (contextual := true) [hw]; done)
    | (simp (maxDischargeDepth := 40) [*]; done)

@[simp] theorem updateRoom_within {u : Units} (x : Ctx) (n : Fin 6) (a : Asker) (d : Direction) (mode : Mode) (target
    : Option Int) (hw : budgetWithin x u) :
    budgetWithin x (updateRoom x n a d mode target u) := hw

@[simp] theorem giveUpPin_within {u : Units} (x : Ctx) (n : Fin 6) (hw : budgetWithin x u) :
    budgetWithin x (giveUpPin x n u) := by
  unfold giveUpPin
  (try dsimp only)
  (repeat' split) <;> first
    | exact hw
    | (simp (maxDischargeDepth := 40) [hw]; done)
    | (simp (maxDischargeDepth := 40) (contextual := true) [hw]; done)
    | (simp (maxDischargeDepth := 40) [*]; done)

@[simp] theorem reverseStep_within {u : Units} (x : Ctx) (n : Fin 6) (d : Direction) (st : RoomStep) (hw :
    budgetWithin x u) :
    budgetWithin x (reverseStep x n d st u) := by
  unfold reverseStep
  (try dsimp only)
  (repeat' split) <;> first
    | exact hw
    | (simp (maxDischargeDepth := 40) [hw]; done)
    | (simp (maxDischargeDepth := 40) (contextual := true) [hw]; done)
    | (simp (maxDischargeDepth := 40) [*]; done)

@[simp] theorem reverseRoom_within {u : Units} (x : Ctx) (n : Fin 6) (a : Asker) (d : Direction) (mode : Mode)
    (target : Option Int) (m : RoomMotion) (hw : budgetWithin x u) :
    budgetWithin x (reverseRoom x n a d mode target m u) := by
  unfold reverseRoom
  (try dsimp only)
  (repeat' split) <;> first
    | exact hw
    | (simp (maxDischargeDepth := 40) [hw]; done)
    | (simp (maxDischargeDepth := 40) (contextual := true) [hw]; done)
    | (simp (maxDischargeDepth := 40) [*]; done)

@[simp] theorem handleRoomMove_within {u : Units} (x : Ctx) (n : Fin 6) (a : Asker) (d : Direction) (mode : Mode)
    (target : Option Int) (hw : budgetWithin x u) :
    budgetWithin x (handleRoomMove x n a d mode target u).1 := by
  unfold handleRoomMove
  (repeat' split) <;> simp [hw]

@[simp] theorem roomMove_within {u : Units} (x : Ctx) (a : Asker) (g : Group) (d : Direction) (mode : Mode) (target :
    Option Int) (gen : Option Generation) (hw : budgetWithin x u) :
    budgetWithin x (roomMove x a g d mode target gen u).1 := by
  unfold roomMove
  (repeat' split) <;> simp [hw]

@[simp] theorem roomStop_within {u : Units} (x : Ctx) (g : Group) (hw : budgetWithin x u) :
    budgetWithin x (roomStop x g u).1 := by
  unfold roomStop
  (repeat' split) <;> simp [hw]

/-! ## JackRequests -/

@[simp] theorem startJacks_within {u : Units} (x : Ctx) (a : Asker) (k : JackAsk) (hw : budgetWithin x u) :
    budgetWithin x (startJacks x a k u) := by
  unfold startJacks
  (try dsimp only)
  (repeat' split) <;> first
    | exact hw
    | (simp (maxDischargeDepth := 40) [hw]; done)
    | (simp (maxDischargeDepth := 40) (contextual := true) [hw]; done)
    | (simp (maxDischargeDepth := 40) [*]; done)

@[simp] theorem updateJacks_within {u : Units} (x : Ctx) (a : Asker) (k : JackAsk) (m : JackMotion) (hw :
    budgetWithin x u) :
    budgetWithin x (updateJacks x a k m u) := by
  unfold updateJacks
  (repeat' split) <;> first | exact hw | simp [hw]

@[simp] theorem jackRequest_within {u : Units} (x : Ctx) (a : Asker) (k : JackAsk) (gen : Option Generation) (hw :
    budgetWithin x u) :
    budgetWithin x (jackRequest x a k gen u).1 := by
  unfold jackRequest
  (repeat' split) <;> simp [hw]

@[simp] theorem jackStop_within {u : Units} (x : Ctx) (hw : budgetWithin x u) :
    budgetWithin x (jackStop x u).1 := by
  unfold jackStop
  (repeat' split) <;> simp [hw]

/-! ## AwningRequests -/

@[simp] theorem startOwner_within {u : Units} (x : Ctx) (a : Asker) (d : Direction) (mode : Mode) (percent : Option
    Nat) (hw : budgetWithin x u) :
    budgetWithin x (startOwner x a d mode percent u) := by
  unfold startOwner
  (try dsimp only)
  (repeat' split) <;> first
    | exact hw
    | (simp (maxDischargeDepth := 40) [hw]; done)
    | (simp (maxDischargeDepth := 40) (contextual := true) [hw]; done)
    | (simp (maxDischargeDepth := 40) [*]; done)

@[simp] theorem reverseOwnerStep_within {u : Units} (x : Ctx) (st : AwningStep) (hw : budgetWithin x u) :
    budgetWithin x (reverseOwnerStep x st u) := by
  unfold reverseOwnerStep
  (repeat' split) <;> simp [hw]

@[simp] theorem handleAwningMove_within {u : Units} (x : Ctx) (a : Asker) (d : Direction) (mode : Mode) (percent :
    Option Nat) (hw : budgetWithin x u) :
    budgetWithin x (handleAwningMove x a d mode percent u).1 := by
  unfold handleAwningMove
  (try dsimp only)
  (repeat' split) <;> first
    | exact hw
    | (simp (maxDischargeDepth := 40) [hw]; done)
    | (simp (maxDischargeDepth := 40) (contextual := true) [hw]; done)
    | (simp (maxDischargeDepth := 40) [*]; done)

@[simp] theorem awningMove_within {u : Units} (x : Ctx) (a : Asker) (d : Direction) (mode : Mode) (percent : Option
    Nat) (gen : Option Generation) (hw : budgetWithin x u) :
    budgetWithin x (awningMove x a d mode percent gen u).1 := by
  unfold awningMove
  (repeat' split) <;> simp [hw]

@[simp] theorem awningStop_within {u : Units} (x : Ctx) (hw : budgetWithin x u) :
    budgetWithin x (awningStop x u).1 := by
  unfold awningStop
  (repeat' split) <;> simp [hw]

/-! ## LineMap -/

@[simp] theorem deliverAction_within {u : Units} (x : Ctx) (a : Asker) (mode : Mode) (k : MapAction) (hw :
    budgetWithin x u) :
    budgetWithin x (deliverAction x a mode k u).1 := by
  unfold deliverAction
  (repeat' split) <;> simp [hw]

@[simp] theorem deliver_within {u : Units} (x : Ctx) (l : Line) (e : MapEntry) (hw : budgetWithin x u) :
    budgetWithin x (deliver x l e u) := by
  unfold deliver
  dsimp only
  (repeat' split) <;> first | exact hw | simp [*]

@[simp] theorem setPendingMark_within {x : Ctx} {u : Units} (l : Line) (b : Bool) (hw : budgetWithin x u) :
    budgetWithin x (setPendingMark l b u) := hw

@[simp] theorem lineReleased_within {u : Units} (x : Ctx) (g : Group) (l : Line) (hw : budgetWithin x u) :
    budgetWithin x (lineReleased x g l u) := by
  unfold lineReleased
  simp [hw]

/-! ## ClaimRequests -/

@[simp] theorem convertClaim_within {u : Units} (x : Ctx) (g : Group) (hw : budgetWithin x u) :
    budgetWithin x (convertClaim x u g) := hw

@[simp] theorem effectClaim_within {u : Units} (x : Ctx) (l : Link) (tag : Byte) (gs : List Group) (rest : List
    Group) (hw : budgetWithin x u) :
    budgetWithin x (effectClaim x l tag gs rest u).1 := by
  unfold effectClaim
  (try dsimp only)
  (repeat' split) <;> first
    | exact hw
    | (simp (maxDischargeDepth := 40) [hw]; done)
    | (simp (maxDischargeDepth := 40) (contextual := true) [hw]; done)
    | (simp (maxDischargeDepth := 40) [*]; done)

@[simp] theorem claimRequest_within {u : Units} (x : Ctx) (l : Link) (tag : Byte) (gs : List Group) (wait : Bool)
    (gen : Option Generation) (hw : budgetWithin x u) :
    budgetWithin x (claimRequest x l tag gs wait gen u).1 := by
  unfold claimRequest
  dsimp only
  (repeat' split) <;> first | exact hw | simp [*]

@[simp] theorem releaseRequest_within {u : Units} (x : Ctx) (l : Link) (gs : List Group) (hw : budgetWithin x u) :
    budgetWithin x (releaseRequest x l gs u).1 := by
  unfold releaseRequest
  dsimp only
  (repeat' split) <;> first | exact hw | simp [*]

@[simp] theorem stopAll_within {u : Units} (x : Ctx) (hw : budgetWithin x u) :
    budgetWithin x (stopAll x u).1 := by
  unfold stopAll
  (try dsimp only)
  (repeat' split) <;> first
    | exact hw
    | (simp (maxDischargeDepth := 40) [hw]; done)
    | (simp (maxDischargeDepth := 40) (contextual := true) [hw]; done)
    | (simp (maxDischargeDepth := 40) [*]; done)

@[simp] theorem setHold_within {x : Ctx} {u : Units} (g : Group) (h : HoldSource) (hw : budgetWithin x u) :
    budgetWithin x (setHold g h u) := by
  unfold setHold
  (repeat' split) <;> simp [hw]

@[simp] theorem holdRefresh_within {u : Units} (x : Ctx) (l : Link) (g : Group) (hw : budgetWithin x u) :
    budgetWithin x (holdRefresh x l g u).1 := by
  unfold holdRefresh
  (repeat' split) <;> simp [hw]

@[simp] theorem faultClear_within {u : Units} (x : Ctx) (l : Link) (tag : Byte) (s : Subject) (hw : budgetWithin x u)
    :
    budgetWithin x (faultClear x l tag s u).1 := by
  unfold faultClear
  (repeat' split) <;> simp [hw]

/-! ## SetupRequests -/

@[simp] theorem commitGroups_within {u : Units} (x : Ctx) (hw : budgetWithin x u) :
    budgetWithin x (commitGroups x u) := hw

@[simp] theorem commitTrips_within {u : Units} (x : Ctx) (hw : budgetWithin x u) : budgetWithin x (commitTrips x u)
    := by
  unfold commitTrips
  refine foldl_within _ (fun v g hv => ?_) _ hw
  split
  · exact raiseGroup_within _ _ _ _ hv
  · exact hv

/-! ## Settle -/

@[simp] theorem endDriveStep_within {u : Units} (x : Ctx) (n : Fin 6) (m : RoomMotion) (hw : budgetWithin x u) :
    budgetWithin x (endDriveStep x n m u) := by
  unfold endDriveStep
  (try dsimp only)
  (repeat' split) <;> first
    | exact hw
    | (simp (maxDischargeDepth := 40) [hw]; done)
    | (simp (maxDischargeDepth := 40) (contextual := true) [hw]; done)
    | (simp (maxDischargeDepth := 40) [*]; done)

@[simp] theorem closeAtLimit_within {u : Units} (x : Ctx) (hw : budgetWithin x u) :
    budgetWithin x (closeAtLimit x u) := hw

theorem roomDue_within {x : Ctx} {n : Fin 6} {u v : Units} (hw : budgetWithin x u) (h : roomDue x n u = some v) :
    budgetWithin x v := by
  unfold roomDue at h
  repeat' split at h
  all_goals first
    | contradiction
    | (cases h; exact endRoom_within _ _ _ _ hw)
    | (cases h; exact pinWithdrawn_within _ _ hw)
    | (cases h; exact endDriveStep_within _ _ _ hw)

theorem ifChanged_within {x : Ctx} {u v w : Units} (hv : budgetWithin x v) (h : ifChanged u v = some w) :
    budgetWithin x w := by
  unfold ifChanged at h
  split at h
  · contradiction
  · cases h; exact hv

theorem jacksDue_within {x : Ctx} {u v : Units} (hw : budgetWithin x u) (h : jacksDue x u = some v) : budgetWithin x
    v := by
  unfold jacksDue at h
  repeat' split at h
  all_goals first
    | contradiction
    | exact ifChanged_within (updImage_within _ hw) h
    | exact ifChanged_within (closeAtLimit_within _ hw) h
    | (cases h; exact beginSettle_within _ hw)
    | (cases h; exact endJacks_within _ _ _ hw)
    | (cases h; exact beginReseek_within _ (updJackMotion_within _ hw))

theorem awningDue_within {x : Ctx} {u v : Units} (hw : budgetWithin x u) (h : awningDue x u = some v) : budgetWithin
    x v := by
  unfold awningDue at h
  repeat' split at h
  all_goals first
    | contradiction
    | (cases h; exact endRetract_within _ _ _ hw)
    | (cases h; exact endAwning_within _ _ _ hw)

theorem stepDue_within {x : Ctx} {u v : Units} (hw : budgetWithin x u) (h : stepDue x u = some v) : budgetWithin x v
    := by
  unfold stepDue at h
  split at h
  · next k =>
    cases h
    obtain ⟨n, _, hn⟩ := List.exists_of_findSome?_eq_some k
    exact roomDue_within hw hn
  split at h
  · next k => cases h; exact jacksDue_within hw k
  · exact awningDue_within hw h

@[simp] theorem settleSteps_within (x : Ctx) : ∀ (fuel : Nat) {u : Units}, budgetWithin x u → budgetWithin x
    (settleSteps x fuel u)
  | 0, _, h => h
  | fuel + 1, u, h => by
    unfold settleSteps
    split
    · next k => exact settleSteps_within x fuel (stepDue_within h k)
    · exact h

@[simp] theorem judgeRoad_within {u : Units} (x : Ctx) (hw : budgetWithin x u) :
    budgetWithin x (judgeRoad x u) := by
  unfold judgeRoad
  simp [hw]

@[simp] theorem permitFall_within {u : Units} (x : Ctx) (hw : budgetWithin x u) :
    budgetWithin x (permitFall x u) := by
  unfold permitFall
  (try dsimp only)
  (repeat' split) <;> first
    | exact hw
    | (simp (maxDischargeDepth := 40) [hw]; done)
    | (simp (maxDischargeDepth := 40) (contextual := true) [hw]; done)
    | (simp (maxDischargeDepth := 40) [*]; done)

@[simp] theorem stopRetract_within {u : Units} (x : Ctx) (u0 : Units) (hw : budgetWithin x u) :
    budgetWithin x (stopRetract x u0 u) := by
  unfold stopRetract
  simp [hw]

@[simp] theorem followAwning_within {u : Units} (x0 : Ctx) (u0 : Units) (x : Ctx) (hw : budgetWithin x u) :
    budgetWithin x (followAwning x0 u0 x u) := by
  unfold followAwning
  simp [hw]

@[simp] theorem clearMarks_within {u : Units} (x : Ctx) (hw : budgetWithin x u) :
    budgetWithin x (clearMarks x u) := by
  unfold clearMarks
  dsimp only
  (repeat' split) <;> first | exact hw | simp [*]

@[simp] theorem overtakeOwner_within {u : Units} (x : Ctx) (hw : budgetWithin x u) :
    budgetWithin x (overtakeOwner x u) := by
  unfold overtakeOwner
  (try dsimp only)
  (repeat' split) <;> first
    | exact hw
    | (simp (maxDischargeDepth := 40) [hw]; done)
    | (simp (maxDischargeDepth := 40) (contextual := true) [hw]; done)
    | (simp (maxDischargeDepth := 40) [*]; done)

@[simp] theorem startRetract_within {u : Units} (x : Ctx) (hw : budgetWithin x u) :
    budgetWithin x (startRetract x u) := by
  unfold startRetract
  (try dsimp only)
  (repeat' split) <;> first
    | exact hw
    | (simp (maxDischargeDepth := 40) [hw]; done)
    | (simp (maxDischargeDepth := 40) (contextual := true) [hw]; done)
    | (simp (maxDischargeDepth := 40) [*]; done)

@[simp] theorem passToWind_within {u : Units} (x : Ctx) (hw : budgetWithin x u) :
    budgetWithin x (passToWind x u) := by
  unfold passToWind
  simp [hw]

@[simp] theorem judgeRetract_within {u : Units} (x : Ctx) (hw : budgetWithin x u) :
    budgetWithin x (judgeRetract x u) := by
  unfold judgeRetract
  (repeat' split) <;> simp [hw]

@[simp] theorem stampDrives_within {y : Ctx} {u : Units} (x : Ctx) (hw : budgetWithin y u) : budgetWithin y
    (stampDrives x u) := by
  unfold stampDrives
  generalize Vector.ofFn _ = v
  exact hw

@[simp] theorem startFrame_within {y : Ctx} {u : Units} (x : Ctx) (hw : budgetWithin y u) : budgetWithin y
    (startFrame x u) := by
  unfold startFrame
  dsimp only
  generalize reshapeAll x u = i
  exact hw

@[simp] theorem advance_within {x : Ctx} {u : Units} (x0 : Ctx) (u0 : Units) (hw : budgetWithin x u) : budgetWithin x
    (advance x0 u0 x u) := by
  unfold advance; split
  · exact hw
  · exact offerAll_within x _ hw

@[simp] theorem chainChange_within {x : Ctx} {u : Units} (u0 : Units) (due : Bool) (hw : budgetWithin x u) :
    budgetWithin x (chainChange x u0 due u) := by
  unfold chainChange
  dsimp only
  repeat' split
  all_goals first | exact startFrame_within x hw | exact hw

@[simp] theorem holdChainLow_within {x : Ctx} {u : Units} (hw : budgetWithin x u) :
    budgetWithin x (holdChainLow u) := by
  unfold holdChainLow
  simp [hw]

@[simp] theorem settleUnits_within {u : Units} (x0 : Ctx) (u0 : Units) (x : Ctx) (hw : budgetWithin x u) :
    budgetWithin x (settleUnits x0 u0 x u) := by
  unfold settleUnits
  (try dsimp only)
  (repeat' split) <;> first
    | exact hw
    | (simp (maxDischargeDepth := 40) [hw]; done)
    | (simp (maxDischargeDepth := 40) (contextual := true) [hw]; done)
    | (simp (maxDischargeDepth := 40) [*]; done)

theorem finish_within {u : Units} (x0 : Ctx) (u0 : Units) (due : Bool) (x : Ctx) (hw : budgetWithin x u) :
    budgetWithin x (finish x0 u0 due x u) :=
  chainChange_within u0 due (stampDrives_within x (advance_within x0 u0 (settleClaims_within x u0 (settleUnits_within
      x0 u0 x hw))))

/-! ## ClaimTimers -/

@[simp] theorem firstTest_within {u : Units} (i : Nat) (e : WaitEntry) (x : Ctx) (hw : budgetWithin x u) :
    budgetWithin x (firstTest i e x u) := by
  unfold firstTest
  simp [hw]

@[simp] theorem expireEntry_within {u : Units} (i : Nat) (e : WaitEntry) (x : Ctx) (hw : budgetWithin x u) :
    budgetWithin x (expireEntry i e x u) := by
  unfold expireEntry
  simp [hw]

/-! ## Samples -/

@[simp] theorem trackSense_within {u : Units} (k : SenseChannel) (was : ChannelRange) (ok : Bool) (x : Ctx) (hw :
    budgetWithin x u) :
    budgetWithin x (trackSense k was ok x u) := by
  unfold trackSense
  (repeat' split) <;> simp [hw]

@[simp] theorem trackUndervolt_within {u : Units} (v : Int) (x : Ctx) (hw : budgetWithin x u) :
    budgetWithin x (trackUndervolt v x u) := by
  unfold trackUndervolt
  (repeat' split) <;> simp [hw]

@[simp] theorem reactPman_within {u : Units} (was : ChannelRange) (v : Int) (confirmed : Bool) (x : Ctx) (hw :
    budgetWithin x u) :
    budgetWithin x (reactPman was v confirmed x u) := by
  unfold reactPman
  (repeat' split) <;> simp [hw]

@[simp] theorem followJacks_within {u : Units} (x : Ctx) (hw : budgetWithin x u) :
    budgetWithin x (followJacks x u) := by
  unfold followJacks
  (repeat' split) <;> simp [hw]

@[simp] theorem trackPj_within {u : Units} (j : Fin 6) (was : ChannelRange) (ok : Bool) (x : Ctx) (hw : budgetWithin
    x u) :
    budgetWithin x (trackPj j was ok x u) := by
  unfold trackPj
  (repeat' split) <;> simp [hw]

@[simp] theorem reactPj_within {u : Units} (j : Fin 6) (was : ChannelRange) (contact : Bool) (v : Int) (x : Ctx) (hw
    : budgetWithin x u) :
    budgetWithin x (reactPj j was contact v x u) := by
  unfold reactPj
  (repeat' split) <;> simp [hw]

@[simp] theorem trackTilt_within {u : Units} (a : TiltAxis) (was : ChannelRange) (ok : Bool) (x : Ctx) (hw :
    budgetWithin x u) :
    budgetWithin x (trackTilt a was ok x u) := by
  unfold trackTilt
  (repeat' split) <;> simp [hw]

@[simp] theorem endLift_within {u : Units} (x : Ctx) (hw : budgetWithin x u) :
    budgetWithin x (endLift x u) := hw

@[simp] theorem liftSample_within {u : Units} (a : TiltAxis) (v : Int) (x : Ctx) (hw : budgetWithin x u) :
    budgetWithin x (liftSample a v x u) := by
  unfold liftSample
  (repeat' split) <;> simp [hw]

@[simp] theorem watchDrift_within {u : Units} (x : Ctx) (hw : budgetWithin x u) :
    budgetWithin x (watchDrift x u) := by
  unfold watchDrift
  dsimp only
  (repeat' split) <;> first | exact hw | simp [*]

@[simp] theorem reactTilt_within {u : Units} (a : TiltAxis) (was : ChannelRange) (v : Int) (x : Ctx) (hw :
    budgetWithin x u) :
    budgetWithin x (reactTilt a was v x u) := by
  unfold reactTilt
  (try dsimp only)
  (repeat' split) <;> first
    | exact hw
    | (simp (maxDischargeDepth := 40) [hw]; done)
    | (simp (maxDischargeDepth := 40) (contextual := true) [hw]; done)
    | (simp (maxDischargeDepth := 40) [*]; done)

/-! ## AxisCommands -/

@[simp] theorem reshapeEnd_within {u : Units} (x0 : Ctx) (x : Ctx) (n : Fin 6) (e : RoomEnd) (hw : budgetWithin x u) :
    budgetWithin x (reshapeEnd x0 x n e u) := by
  unfold reshapeEnd
  simp [hw]

@[simp] theorem reshapeAwning_within {u : Units} (x0 : Ctx) (x : Ctx) (hw : budgetWithin x u) :
    budgetWithin x (reshapeAwning x0 x u) := by
  unfold reshapeAwning
  simp [hw]

@[simp] theorem followRoom_within {u : Units} (x : Ctx) (n : Fin 6) (hw : budgetWithin x u) :
    budgetWithin x (followRoom x n u) := by
  unfold followRoom
  (repeat' split) <;> simp [hw]

@[simp] theorem freeHeldEnd_within {u : Units} (x : Ctx) (n : Fin 6) (hw : budgetWithin x u) :
    budgetWithin x (freeHeldEnd x n u) := by
  unfold freeHeldEnd
  dsimp only
  (repeat' split) <;> first | exact hw | simp [*]

@[simp] theorem endOff_within {u : Units} (x : Ctx) (n : Fin 6) (e : RoomEnd) (hw : budgetWithin x u) :
    budgetWithin x (endOff x n e u) := by
  unfold endOff
  (repeat' split) <;> simp [hw]

@[simp] theorem endHome_within {u : Units} (x : Ctx) (n : Fin 6) (e : RoomEnd) (before : Counter) (hw : budgetWithin
    x u) :
    budgetWithin x (endHome x n e before u) := by
  unfold endHome
  (repeat' split) <;> simp [hw]

@[simp] theorem endPausedRetract_within {u : Units} (x0 : Ctx) (x : Ctx) (n : Fin 6) (hw : budgetWithin x u) :
    budgetWithin x (endPausedRetract x0 x n u) := by
  unfold endPausedRetract
  (repeat' split) <;> simp [hw]

@[simp] theorem reactIn_within {u : Units} (x0 : Ctx) (n : Fin 6) (e : RoomEnd) (made : Bool) (x : Ctx) (hw :
    budgetWithin x u) :
    budgetWithin x (reactIn x0 n e made x u) := by
  unfold reactIn
  (try dsimp only)
  (repeat' split) <;> first
    | exact hw
    | (simp (maxDischargeDepth := 40) [hw]; done)
    | (simp (maxDischargeDepth := 40) (contextual := true) [hw]; done)
    | (simp (maxDischargeDepth := 40) [*]; done)

@[simp] theorem followAwningSwitch_within {u : Units} (x : Ctx) (hw : budgetWithin x u) :
    budgetWithin x (followAwningSwitch x u) := by
  unfold followAwningSwitch
  (repeat' split) <;> simp [hw]

@[simp] theorem reactAwningSwitch_within {u : Units} (x0 : Ctx) (made : Bool) (x : Ctx) (hw : budgetWithin x u) :
    budgetWithin x (reactAwningSwitch x0 made x u) := by
  unfold reactAwningSwitch
  dsimp only
  (repeat' split) <;> first | exact hw | simp [*]

@[simp] theorem syncHold_within {u : Units} (x : Ctx) (n : Fin 6) (hw : budgetWithin x u) :
    budgetWithin x (syncHold x n u) := by
  unfold syncHold
  dsimp only
  (repeat' split) <;> first | exact hw | simp [*]

@[simp] theorem stopAtEnd_within {u : Units} (x : Ctx) (n : Fin 6) (e : RoomEnd) (hw : budgetWithin x u) :
    budgetWithin x (stopAtEnd x n e u) := by
  unfold stopAtEnd
  (repeat' split) <;> simp [hw]

@[simp] theorem releasePin_within {u : Units} (x : Ctx) (n : Fin 6) (hw : budgetWithin x u) :
    budgetWithin x (releasePin x n u) := by
  unfold releasePin
  (repeat' split) <;> simp [hw]

@[simp] theorem roomPulse_within {u : Units} (x0 : Ctx) (n : Fin 6) (e : RoomEnd) (x : Ctx) (hw : budgetWithin x u) :
    budgetWithin x (roomPulse x0 n e x u) := by
  unfold roomPulse
  (try dsimp only)
  (repeat' split) <;> first
    | exact hw
    | (simp (maxDischargeDepth := 40) [hw]; done)
    | (simp (maxDischargeDepth := 40) (contextual := true) [hw]; done)
    | (simp (maxDischargeDepth := 40) [*]; done)

@[simp] theorem jackPulse_within {u : Units} (j : Fin 6) (x : Ctx) (hw : budgetWithin x u) :
    budgetWithin x (jackPulse j x u) := by
  unfold jackPulse
  simp [hw]

@[simp] theorem awningPulse_within {u : Units} (x0 : Ctx) (x : Ctx) (hw : budgetWithin x u) :
    budgetWithin x (awningPulse x0 x u) := by
  unfold awningPulse
  dsimp only
  (repeat' split) <;> first | exact hw | simp [*]

@[simp] theorem reactPulse_within {u : Units} (x0 : Ctx) (a : Axis) (x : Ctx) (hw : budgetWithin x u) :
    budgetWithin x (reactPulse x0 a x u) := by
  unfold reactPulse
  (repeat' split) <;> simp [hw]

/-! ## WindCommands -/

@[simp] theorem reactSecond_within {u : Units} (was : Bool) (x : Ctx) (hw : budgetWithin x u) :
    budgetWithin x (reactSecond was x u) := by
  unfold reactSecond
  simp [hw]

/-! ## ChainCommands -/

@[simp] theorem landFlight_within {x : Ctx} {u : Units} (hw : budgetWithin x u) :
    budgetWithin x (landFlight u) := hw

@[simp] theorem reactMissing_within {u : Units} (raises : Bool) (x : Ctx) (hw : budgetWithin x u) :
    budgetWithin x (reactMissing raises x u) := by
  unfold reactMissing
  (repeat' split) <;> simp [hw]

@[simp] theorem raiseNewTrips_within {u : Units} (x : Ctx) (last : Option Echo) (e : Echo) (hw : budgetWithin x u) :
    budgetWithin x (raiseNewTrips x last e u) := by
  unfold raiseNewTrips
  (try dsimp only)
  (repeat' split) <;> first
    | exact hw
    | (simp (maxDischargeDepth := 40) [hw]; done)
    | (simp (maxDischargeDepth := 40) (contextual := true) [hw]; done)
    | (simp (maxDischargeDepth := 40) [*]; done)

@[simp] theorem trackHot_within {u : Units} (x : Ctx) (e : Echo) (hw : budgetWithin x u) :
    budgetWithin x (trackHot x e u) := by
  unfold trackHot
  (repeat' split) <;> simp [hw]

@[simp] theorem confirmSubject_within {x : Ctx} {u : Units} (latched : Image) (s : Subject) (hw : budgetWithin x u) :
    budgetWithin x (confirmSubject latched u s) := by
  unfold confirmSubject
  (repeat' split) <;> simp [hw]

@[simp] theorem confirmAll_within {x : Ctx} {u : Units} (latched : Image) (hw : budgetWithin x u) :
    budgetWithin x (confirmAll latched u) := by
  unfold confirmAll
  (try dsimp only)
  (repeat' split) <;> first
    | exact hw
    | (simp (maxDischargeDepth := 40) [hw]; done)
    | (simp (maxDischargeDepth := 40) (contextual := true) [hw]; done)
    | (simp (maxDischargeDepth := 40) [*]; done)

@[simp] theorem clearHeld_within {u : Units} (x : Ctx) (s : Subject) (hs : List HeldClear) (hw : budgetWithin x u) :
    budgetWithin x (clearHeld x s hs u) := by
  unfold clearHeld
  (try dsimp only)
  (repeat' split) <;> first
    | exact hw
    | (simp (maxDischargeDepth := 40) [hw]; done)
    | (simp (maxDischargeDepth := 40) (contextual := true) [hw]; done)
    | (simp (maxDischargeDepth := 40) [*]; done)

@[simp] theorem decideHeld_within {u : Units} (x : Ctx) (last : Option Echo) (e : Echo) (s : Subject) (hw :
    budgetWithin x u) :
    budgetWithin x (decideHeld x last e u s) := by
  unfold decideHeld
  dsimp only
  (repeat' split) <;> first | exact hw | simp [*]

@[simp] theorem riseChain_within {u : Units} (x : Ctx) (f : Flight) (e : Echo) (hw : budgetWithin x u) :
    budgetWithin x (riseChain x f e u) := by
  unfold riseChain
  simp [hw]

@[simp] theorem reactEcho_within {u : Units} (f : Flight) (e : Echo) (last : Option Echo) (raises : Option (Fin 33))
    (x : Ctx) (hw : budgetWithin x u) :
    budgetWithin x (reactEcho f e last raises x u) := by
  unfold reactEcho
  (try dsimp only)
  (repeat' split) <;> first
    | exact hw
    | (simp (maxDischargeDepth := 40) [hw]; done)
    | (simp (maxDischargeDepth := 40) (contextual := true) [hw]; done)
    | (simp (maxDischargeDepth := 40) [*]; done)

/-! ## MotionTimers -/

@[simp] theorem expirePin_within {u : Units} (n : Fin 6) (x : Ctx) (hw : budgetWithin x u) :
    budgetWithin x (expirePin n x u) := by
  unfold expirePin
  simp [hw]

@[simp] theorem driveAfterDwell_within {u : Units} (x : Ctx) (n : Fin 6) (hw : budgetWithin x u) :
    budgetWithin x (driveAfterDwell x n u) := by
  unfold driveAfterDwell
  simp [hw]

@[simp] theorem endDwell_within {u : Units} (n : Fin 6) (x : Ctx) (hw : budgetWithin x u) :
    budgetWithin x (endDwell n x u) := by
  unfold endDwell
  (try dsimp only)
  (repeat' split) <;> first
    | exact hw
    | (simp (maxDischargeDepth := 40) [hw]; done)
    | (simp (maxDischargeDepth := 40) (contextual := true) [hw]; done)
    | (simp (maxDischargeDepth := 40) [*]; done)

@[simp] theorem endAwningDwell_within {u : Units} (x : Ctx) (hw : budgetWithin x u) :
    budgetWithin x (endAwningDwell x u) := by
  unfold endAwningDwell
  simp [hw]

@[simp] theorem expireSeek_within {u : Units} (x : Ctx) (hw : budgetWithin x u) :
    budgetWithin x (expireSeek x u) := by
  unfold expireSeek
  (repeat' split) <;> simp [hw]

@[simp] theorem beginLift_within {u : Units} (x : Ctx) (hw : budgetWithin x u) :
    budgetWithin x (beginLift x u) := by
  unfold beginLift
  dsimp only
  (repeat' split) <;> first | exact hw | simp [*]

@[simp] theorem comparePass_within {u : Units} (x : Ctx) (passes : Nat) (hw : budgetWithin x u) :
    budgetWithin x (comparePass x passes u) := by
  unfold comparePass
  (repeat' split) <;> simp [hw]

@[simp] theorem endSettle_within {u : Units} (x : Ctx) (hw : budgetWithin x u) :
    budgetWithin x (endSettle x u) := by
  unfold endSettle
  (repeat' split) <;> simp [hw]

@[simp] theorem expireRetract_within {u : Units} (x : Ctx) (hw : budgetWithin x u) :
    budgetWithin x (expireRetract x u) := by
  unfold expireRetract
  (repeat' split) <;> simp [hw]

/-! ## ManifoldTimers -/

@[simp] theorem endSwitching_within {u : Units} (x : Ctx) (hw : budgetWithin x u) :
    budgetWithin x (endSwitching x u) := by
  unfold endSwitching
  dsimp only
  (repeat' split) <;> first | exact hw | simp [*]

@[simp] theorem nextHeatInterval_within {x : Ctx} {u : Units} (ms : Nat) (hw : budgetWithin x u) :
    budgetWithin x (nextHeatInterval ms u) := hw

@[simp] theorem pauseForHeat_within {u : Units} (x : Ctx) (k : ManifoldUser) (hw : budgetWithin x u) :
    budgetWithin x (pauseForHeat x k u) := by
  unfold pauseForHeat
  (repeat' split) <;> simp [hw]

@[simp] theorem enterCooling_within {u : Units} (x : Ctx) (hw : budgetWithin x u) :
    budgetWithin x (enterCooling x u) := by
  unfold enterCooling
  (try dsimp only)
  (repeat' split) <;> first
    | exact hw
    | (simp (maxDischargeDepth := 40) [hw]; done)
    | (simp (maxDischargeDepth := 40) (contextual := true) [hw]; done)
    | (simp (maxDischargeDepth := 40) [*]; done)

/-! ## The setup part and whole events -/

theorem ctx_congr {x y : Ctx} (hst : y.m.straps = x.m.straps) (hp : y.c.profile = x.c.profile)
    (hr : y.c.phase = x.c.phase) : reserve y = reserve x ∧ allocation y .awning = allocation x .awning := by
  have h1 : y.profile = x.profile := by unfold Ctx.profile; rw [hst, hp]
  have h2 : y.awningPresent = x.awningPresent := by unfold Ctx.awningPresent Ctx.running; rw [h1, hr]
  have h3 (i : Nat) : y.awningField i = x.awningField i := by unfold Ctx.awningField; rw [h1, h2, hst]
  exact ⟨by unfold reserve; rw [h2, h3], by simp only [allocation]; rw [h3]⟩

/-- Only the limit, the straps, the profile and the phase matter to the budget. -/
theorem within_congr {x y : Ctx} {u : Units} (hb : y.m.bLim = x.m.bLim) (hst : y.m.straps = x.m.straps)
    (hp : y.c.profile = x.c.profile) (hr : y.c.phase = x.c.phase) (h : budgetWithin x u) : budgetWithin y u := by
  have ⟨h1, h2⟩ := ctx_congr hst hp hr
  unfold budgetWithin
  rw [h1, h2, hb]
  exact h

/-- In RUN with profile `p`, the desk's admissions are within the limit. -/
structure DeskWithin (m : Measured) (p : Option Slots) (d : Desk) : Prop where
  profile : d.c.profile = p
  phase : d.c.phase = .run
  within : budgetWithin (d.ctx m) d.u

theorem DeskWithin.put {m : Measured} {p : Option Slots} {d : Desk} (h : DeskWithin m p d) {c : Setup} {u : Units}
    (hp : c.profile = d.c.profile) (hr : c.phase = d.c.phase) (hu : budgetWithin (d.ctx m) u) :
    DeskWithin m p { c := c, u := u } :=
  ⟨hp.trans h.1, hr.trans h.2, within_congr (x := d.ctx m) rfl rfl hp hr hu⟩

theorem withEntry_prof (c : Setup) (l : Line) (e : MapEntry) : (withEntry c l e).profile = c.profile ∧ (withEntry c l
    e).phase = c.phase := by
  unfold withEntry; split <;> exact ⟨rfl, rfl⟩

section
variable {m : Measured} {p : Option Slots}

theorem levelDelivery_desk (l : Line) {d : Desk} (h : DeskWithin m p d) : DeskWithin m p (levelDelivery m l d) := by
  unfold levelDelivery
  dsimp only
  split
  · exact h.put (withEntry_prof _ _ _).1 (withEntry_prof _ _ _).2 (deliver_within _ _ _ h.3)
  · exact h

theorem activate_desk (l : Line) {d : Desk} (h : DeskWithin m p d) : DeskWithin m p (activate m l d) := by
  unfold activate
  dsimp only
  repeat' split
  all_goals first
    | exact h
    | exact h.put rfl rfl (offerRoute_within _ _ _ h.3)
    | exact levelDelivery_desk l h
    | exact h.put rfl rfl (deliver_within _ _ _ (setPendingMark_within _ _ h.3))
    | exact h.put rfl rfl (setPendingMark_within _ _ h.3)
    | (unfold setPark; exact h.put rfl rfl (within_ite (offerAll_within _ _ h.3) h.3))
    | (unfold setIgn; exact h.put rfl rfl (within_ite (offerTo_within _ _ _ (within_ite (updAwning_within _ h.3)
        h.3)) (within_ite (updAwning_within _ h.3) h.3)))

theorem deactivate_desk (l : Line) {d : Desk} (h : DeskWithin m p d) : DeskWithin m p (deactivate m l d) := by
  unfold deactivate
  dsimp only
  repeat' split
  all_goals first
    | exact h
    | exact h.put rfl rfl (offerRoute_within _ _ _ h.3)
    | exact h.put (withEntry_prof _ _ _).1 (withEntry_prof _ _ _).2 (lineReleased_within _ _ _ h.3)
    | exact h.put (withEntry_prof _ _ _).1 (withEntry_prof _ _ _).2 h.3
    | (unfold setPark; exact h.put rfl rfl (within_ite (offerAll_within _ _ h.3) h.3))
    | (unfold setIgn; exact h.put rfl rfl (within_ite (offerTo_within _ _ _ (within_ite (updAwning_within _ h.3)
        h.3)) (within_ite (updAwning_within _ h.3) h.3)))

theorem setLevel_desk (n : Fin 16) (v : Level) {d : Desk} (h : DeskWithin m p d) : DeskWithin m p (setLevel m n v d)
    := by
  unfold setLevel
  dsimp only
  have h' : DeskWithin m p { d with c := { d.c with wired := d.c.wired.set n { d.c.wired[n] with level := v, timing
      := none } } } := h.put rfl rfl h.3
  split
  · exact activate_desk _ h'
  · exact deactivate_desk _ h'

theorem writeVirtual_desk (n : Fin 8) (v : Bool) (w : Option Link) (t : Option CoachTime) {d : Desk} (h : DeskWithin
    m p d) :
    DeskWithin m p (writeVirtual n v w t d) := h.put rfl rfl h.3
theorem dropVirtual_desk (n : Fin 8) {d : Desk} (h : DeskWithin m p d) : DeskWithin m p (dropVirtual m n d) :=
  deactivate_desk _ (writeVirtual_desk _ _ _ _ h)
theorem setVirtual_desk (l : Link) (n : Fin 8) (v : Bool) {d : Desk} (h : DeskWithin m p d) : DeskWithin m p
    (setVirtual m l n v d) := by
  unfold setVirtual
  dsimp only
  split
  · exact activate_desk _ (writeVirtual_desk _ _ _ _ h)
  · exact writeVirtual_desk _ _ _ _ h
  · exact dropVirtual_desk _ h
  · exact h

theorem foldl_desk {α : Type} (f : Desk → α → Desk) (hf : ∀ d a, DeskWithin m p d → DeskWithin m p (f d a)) :
    ∀ (l : List α) {d : Desk}, DeskWithin m p d → DeskWithin m p (l.foldl f d)
  | [], _, h => h
  | a :: l, _, h => foldl_desk f hf l (hf _ a h)

theorem silenceVirtual_desk (l : Link) {d : Desk} (h : DeskWithin m p d) : DeskWithin m p (silenceVirtual m l d) := by
  unfold silenceVirtual
  refine foldl_desk _ (fun d n h => ?_) _ h
  split
  · exact dropVirtual_desk _ h
  · exact h

theorem linesSet_desk (l : Link) (sel : List (Line × Bool)) {d : Desk} (h : DeskWithin m p d) : DeskWithin m p
    (linesSet m l sel d).1 := by
  unfold linesSet
  repeat' split
  all_goals first
    | exact h
    | (refine foldl_desk _ (fun d n h => ?_) _ h
       split
       · exact setVirtual_desk _ _ _ h
       · exact h)

theorem applyDebounce_desk (l : Line) {d : Desk} (h : DeskWithin m p d) : DeskWithin m p (applyDebounce m l d) := by
  unfold applyDebounce
  repeat' split
  all_goals first | exact h | exact setLevel_desk _ _ h

theorem writeMap_prof (l : Line) (fs : List MapField) (c : Setup) : (writeMap l fs c).profile = c.profile ∧ (writeMap
    l fs c).phase = c.phase := by
  unfold writeMap
  dsimp only
  split
  · exact withEntry_prof _ _ _
  · exact withEntry_prof _ _ _

theorem desk_ite {a b : Desk} {c : Prop} [Decidable c] (ha : DeskWithin m p a) (hb : DeskWithin m p b) : DeskWithin m
    p (if c then a else b) := by
  split <;> assumption

theorem mapWrite_desk (l : Line) (fs : List MapField) {d : Desk} (h : DeskWithin m p d) : DeskWithin m p (mapWrite m
    l fs d).1 := by
  unfold mapWrite
  split
  · exact h
  dsimp only
  refine applyDebounce_desk l ?_
  have h1 : DeskWithin m p (Desk.mk (writeMap l fs d.c)
      (if (d.u.pendingMarks[lineIdx l] && fs.any notMask) = true then setPendingMark l false d.u else d.u)) :=
    h.put (writeMap_prof _ _ _).1 (writeMap_prof _ _ _).2 (within_ite (setPendingMark_within _ _ h.3) h.3)
  have h2 {c : Bool} := desk_ite (c := c = true) (h1.put rfl rfl (deliver_within _ l (entryOf (writeMap l fs d.c) l)
      (setPendingMark_within l false h1.3))) h1
  exact desk_ite (levelDelivery_desk l h2) h2

theorem profileStage_locked (m : Measured) (l : Link) (sec : Section) (es : List (Nat × Int)) (c : Setup) (h :
    profileLocked c l = true) :
    (profileStage m l sec es c).1 = c := by
  unfold profileStage; rw [h]; split <;> rfl
theorem profileAbandon_locked (m : Measured) (l : Link) (c : Setup) (h : profileLocked c l = true) : (profileAbandon
    m l c).1 = c := by
  unfold profileAbandon; rw [h]; rfl
theorem profileCommit_locked (m : Measured) (l : Link) (d : Desk) (h : profileLocked d.c l = true) : (profileCommit m
    l d).1 = d := by
  unfold profileCommit; rw [h]; rfl
theorem attentionSet_prof (l : Link) (v : Nat) (c : Setup) : (attentionSet l v c).1.profile = c.profile ∧
    (attentionSet l v c).1.phase = c.phase := by
  unfold attentionSet; split <;> exact ⟨rfl, rfl⟩

theorem decideRequest_desk (l : Link) (tag : Byte) (q : Request) {d : Desk} (h : DeskWithin m p d) : DeskWithin m p
    (decideRequest m l tag q d).1 := by
  have hl : profileLocked d.c l = true := by unfold profileLocked; rw [h.2]; rfl
  unfold decideRequest
  cases q
  case claim => exact h.put rfl rfl (claimRequest_within _ _ _ _ _ _ h.3)
  case release => exact h.put rfl rfl (releaseRequest_within _ _ _ h.3)
  case roomMove => exact h.put rfl rfl (roomMove_within _ _ _ _ _ _ _ h.3)
  case roomStop => exact h.put rfl rfl (roomStop_within _ _ h.3)
  case jackAuto => exact h.put rfl rfl (jackRequest_within _ _ _ _ h.3)
  case jackSeek => exact h.put rfl rfl (jackRequest_within _ _ _ _ h.3)
  case jackJog => exact h.put rfl rfl (jackRequest_within _ _ _ _ h.3)
  case jackRetract => exact h.put rfl rfl (jackRequest_within _ _ _ _ h.3)
  case jackStop => exact h.put rfl rfl (jackStop_within _ h.3)
  case awningMove => exact h.put rfl rfl (awningMove_within _ _ _ _ _ _ h.3)
  case awningStop => exact h.put rfl rfl (awningStop_within _ h.3)
  case stopAll => exact h.put rfl rfl (stopAll_within _ h.3)
  case holdRefresh => exact h.put rfl rfl (holdRefresh_within _ _ _ h.3)
  case linesSet => exact linesSet_desk _ _ h
  case mapWrite => exact mapWrite_desk _ _ h
  case profileStage sec es =>
    show DeskWithin m p { c := (profileStage m l sec es d.c).1, u := d.u }
    rw [profileStage_locked _ _ _ _ _ hl]; exact h
  case profileCommit =>
    show DeskWithin m p (profileCommit m l d).1
    rw [profileCommit_locked _ _ _ hl]; exact h
  case profileAbandon =>
    show DeskWithin m p { c := (profileAbandon m l d.c).1, u := d.u }
    rw [profileAbandon_locked _ _ _ hl]; exact h
  case attentionSet v => exact h.put (attentionSet_prof _ _ _).1 (attentionSet_prof _ _ _).2 h.3
  case faultClear => exact h.put rfl rfl (faultClear_within _ _ _ _ h.3)
  case linkStatus => exact h.put rfl rfl h.3
  all_goals exact h

theorem decideTaken_desk (l : Link) (q : QueuedRequest) {d : Desk} (h : DeskWithin m p d) : DeskWithin m p
    (decideTaken m l q d) := by
  have k := decideRequest_desk l q.tag q.req h
  unfold decideTaken
  dsimp only
  refine k.put rfl rfl (finish_within _ _ _ _ ?_)
  split
  · exact respond_within _ _ _ _ _ k.3
  · exact k.3

theorem takeHead_desk (l : Link) {d : Desk} (h : DeskWithin m p d) : DeskWithin m p (takeHead m l d) := by
  unfold takeHead
  split
  · exact h
  · exact decideTaken_desk _ _ (h.put rfl rfl h.3)

theorem transmit_desk (l : Link) {d : Desk} (h : DeskWithin m p d) : DeskWithin m p (transmit m l d) := by
  unfold transmit
  repeat' split
  · exact h
  · exact h.put rfl rfl h.3
  · exact h.put rfl rfl h.3
  · exact h

theorem servePort_desk (l : Link) {d : Desk} (h : DeskWithin m p d) : DeskWithin m p (servePort m d l) := by
  unfold servePort
  split
  · exact transmit_desk _ (takeHead_desk _ h)
  · exact transmit_desk _ h

theorem serveRounds_desk : ∀ (n : Nat) {d : Desk}, DeskWithin m p d → DeskWithin m p (serveRounds m n d)
  | 0, _, h => h
  | n + 1, _, h => serveRounds_desk n (foldl_desk _ (fun _ l h => servePort_desk l h) _ h)

theorem servePorts_desk {d : Desk} (h : DeskWithin m p d) : DeskWithin m p (servePorts m d) :=
  foldl_desk _ (fun _ l h => transmit_desk l h) _ (serveRounds_desk _ h)

theorem settleEvent_desk' (s : State) (d : Desk) (due : Bool) (h : DeskWithin m p d) : DeskWithin m p (settleEvent s
    m d due).desk := by
  rw [settleEvent_desk]
  exact servePorts_desk (h.put rfl rfl (finish_within _ _ _ _ h.3))

end

/-- The state's admissions within the limit, in RUN with profile p. -/
def StateWithin (p : Option Slots) (s : State) : Prop := DeskWithin s.m p s.desk

theorem event_within {p : Option Slots} {s t : State} {m : Measured} {d : Desk} {due : Bool} (h : DeskWithin m p d)
    (e : (Host.Outcome.next (settleEvent s m d due) : Answer) = .next t) : StateWithin p t := by
  cases e
  exact settleEvent_desk' s d due h

theorem reactDesk_within {p : Option Slots} {s : State} {m : Measured} {f : Ctx → Units → Units}
    (hs : StateWithin p s)
    (hb : m.bLim = s.m.bLim) (hst : m.straps = s.m.straps)
    (hf : ∀ x u, budgetWithin x u → budgetWithin x (f x u)) :
    DeskWithin m p { c := s.c, u := f { m := m, c := s.c } s.u } := by
  refine ⟨hs.1, hs.2, ?_⟩
  show budgetWithin (Ctx.mk m s.c) (f (Ctx.mk m s.c) s.u)
  refine hf (Ctx.mk m s.c) s.u ?_
  exact within_congr (x := s.ctx) hb hst rfl rfl hs.3

theorem react_within {p : Option Slots} {s t : State} {m : Measured} {f : Ctx → Units → Units} (hs : StateWithin p s)
    (e : (Host.Outcome.next (unitEvent s m f) : Answer) = .next t)
    (hb : m.bLim = s.m.bLim) (hst : m.straps = s.m.straps)
    (hf : ∀ x u, budgetWithin x u → budgetWithin x (f x u)) : StateWithin p t :=
  event_within (reactDesk_within hs hb hst hf) e

theorem plain_within {p : Option Slots} {s a t : State} (hs : StateWithin p s)
    (e : (Host.Outcome.next a : Answer) = .next t)
    (hb : a.m.bLim = s.m.bLim) (hst : a.m.straps = s.m.straps)
    (hc : a.c.profile = s.c.profile ∧ a.c.phase = s.c.phase)
    (hu : budgetWithin s.ctx s.u → budgetWithin s.ctx a.u) : StateWithin p t := by
  cases e
  refine ⟨hc.1.trans hs.1, hc.2.trans hs.2, ?_⟩
  exact within_congr (x := s.ctx) hb hst hc.1 hc.2 (hu hs.3)

theorem self_within {p : Option Slots} {s t : State} (hs : StateWithin p s) (e : (Host.Outcome.next s : Answer) =
    .next t) : StateWithin p t := by
  cases e; exact hs

theorem port_within {p : Option Slots} {s t : State} {l : Link} {f : PortIn → PortIn} (hs : StateWithin p s)
    (e : setupEvent s (updPort s.c l f) = .next t) : StateWithin p t :=
  plain_within (a := { s with c := updPort s.c l f }) hs e rfl rfl ⟨rfl, rfl⟩ id

theorem receive_within {p : Option Slots} {s t : State} {l : Link} {tag : Byte} {q : Request} (hs : StateWithin p s)
    (e : receive l tag q s = .next t) : StateWithin p t := by
  unfold receive at e
  refine event_within ?_ e
  have h1 : DeskWithin s.m p { s.desk with c := hearLink s.m l s.c } := hs.put rfl rfl hs.3
  unfold queueRequest
  repeat' split
  · exact h1.put rfl rfl h1.3
  · exact h1.put rfl rfl (respond_within _ _ _ _ _ h1.3)
  · exact h1.put rfl rfl h1.3

/-- A VBAT sample leaves the admissions within the limit it set, whatever that is. -/
theorem reactVbat_within {x : Ctx} {u : Units} (r : ChannelRange) (v : Int) (hr : x.running = true)
    (h : budgetOnce x u) : budgetWithin x (reactVbat r v x u) := by
  have hraise (k : FaultCode) (d : Detail) {w : Units} (h : budgetOnce x w) : budgetOnce x (raise x .coach k d w) := by
    unfold raise
    dsimp only
    unfold haltA
    refine once_of_within (settleGroups_within x (endRetract_within x false _ (abortAll_within x _ ?_)))
    exact ⟨List.nodup_nil, Nat.zero_le _, Nat.zero_le _, fun a h => (nomatch h), fun a h => (nomatch h), h.2.2.2⟩
  have hclear (k : FaultCode) {w : Units} (h : budgetOnce x w) : budgetOnce x (clearPresent .coach k w) := h
  unfold reactVbat
  refine applyLimit_within hr ?_
  have h1 : budgetOnce x (trackSense .vbat r (inRange 0 4000 v) x u) := by
    unfold trackSense
    repeat' split
    all_goals first | exact h | exact hclear _ h | exact hraise _ _ h
  unfold trackUndervolt
  dsimp only
  repeat' split
  all_goals first | exact h1 | exact hclear _ h1 | exact hraise _ _ h1

end Sys2Proof.Laws
end

