-- ==== Sys2Proof/Laws/Held.lean ====
section
/-! SUPPORT. What the budget and the manifold never do to a motion: `Held u v` says that from u to v no claim, wait entry
or mark changed, no motion began or ended and none changed its requester, direction or hold; a group that is not moving
is as it was. From it, what the end of each group's motion leaves (R97, R121, R143, R152). -/
namespace Sys2Proof.Laws
open Sys2Proof.Machine Sys2Proof.Safety

/-- Everything but the ports' outgoing parts is as it was. -/
def ButOut (u v : Units) : Prop := { v with out := u.out } = u

theorem ButOut.refl (u : Units) : ButOut u u := rfl
theorem ButOut.eq {u v : Units} (h : ButOut u v) : v = { u with out := v.out } := by
  unfold ButOut at h
  rw [← h]
theorem ButOut.trans {a b c : Units} (h : ButOut a b) (k : ButOut b c) : ButOut a c := by
  rw [k.eq, h.eq]; rfl
theorem updOut_butOut (u : Units) (l : Link) (f : PortOut → PortOut) : ButOut u (updOut u l f) := rfl

theorem offerTo_butOut (x : Ctx) (l : Link) (b : NoticeBody) (u : Units) : ButOut u (offerTo x l b u) := by
  unfold offerTo; split <;> rfl
theorem offerAll_butOut (x : Ctx) (b : NoticeBody) (u : Units) : ButOut u (offerAll x b u) :=
  ((offerTo_butOut x .ml0 b u).trans (offerTo_butOut x .ml1 b _)).trans (offerTo_butOut x .ml2 b _)
theorem offerLeast_butOut (x : Ctx) (b : NoticeBody) (u : Units) : ButOut u (offerLeast x b u) := by
  unfold offerLeast; split
  · exact offerTo_butOut _ _ _ _
  · exact offerAll_butOut _ _ _
theorem offerRoute_butOut (x : Ctx) (r : Route) (b : NoticeBody) (u : Units) : ButOut u (offerRoute x r b u) := by
  unfold offerRoute; split
  · exact offerLeast_butOut _ _ _
  · dsimp only
    have h (c : Bool) (l : Link) (v : Units) : ButOut v (if c = true then offerTo x l b v else v) := by
      split
      · exact offerTo_butOut _ _ _ _
      · rfl
    exact ((h _ .ml0 u).trans (h _ .ml1 _)).trans (h _ .ml2 _)
theorem offerMotion_butOut (x : Ctx) (q : Requester) (r : Route) (b : NoticeBody) (u : Units) :
    ButOut u (offerMotion x q r b u) := by
  unfold offerMotion; split
  · exact offerTo_butOut _ _ _ _
  · exact offerRoute_butOut _ _ _ _
theorem offerHolder_butOut (x : Ctx) (g : Group) (b : NoticeBody) (u : Units) : ButOut u (offerHolder x g b u) := by
  unfold offerHolder; split
  · exact offerTo_butOut _ _ _ _
  · exact offerLeast_butOut _ _ _
theorem offerRoom_butOut (x : Ctx) (n : Fin 6) (b : NoticeBody) (u : Units) : ButOut u (offerRoom x n b u) := by
  unfold offerRoom; split
  · exact offerMotion_butOut _ _ _ _ _
  · rfl
theorem offerJacks_butOut (x : Ctx) (b : NoticeBody) (u : Units) : ButOut u (offerJacks x b u) := by
  unfold offerJacks; split
  · exact offerMotion_butOut _ _ _ _ _
  · rfl
theorem offerAwning_butOut (x : Ctx) (b : NoticeBody) (u : Units) : ButOut u (offerAwning x b u) := by
  unfold offerAwning; split
  · exact offerHolder_butOut _ _ _ _
  · exact offerMotion_butOut _ _ _ _ _
  · rfl

/-- What a motion record keeps while others act: who asked for what; PIN_ENGAGE with its pending result. -/
structure KeepsMotion (m m' : RoomMotion) : Prop where
  requester : m'.requester = m.requester
  dir : m'.dir = m.dir
  mode : m'.mode = m.mode
  target : m'.target = m.target
  hold : m'.hold = m.hold
  route : m'.route = m.route
  engage : m.step = .pinEngage → m'.step = .pinEngage ∧ m'.pending = m.pending

theorem KeepsMotion.refl (m : RoomMotion) : KeepsMotion m m := ⟨rfl, rfl, rfl, rfl, rfl, rfl, fun h => ⟨h, rfl⟩⟩
theorem KeepsMotion.trans {a b c : RoomMotion} (h : KeepsMotion a b) (k : KeepsMotion b c) : KeepsMotion a c :=
  ⟨k.1.trans h.1, k.2.trans h.2, k.3.trans h.3, k.4.trans h.4, k.5.trans h.5, k.6.trans h.6,
    fun e => ⟨(k.7 (h.7 e).1).1, ((k.7 (h.7 e).1).2).trans (h.7 e).2⟩⟩

/-- Room n and its channels as they were. -/
structure SameRoom (n : Fin 6) (u v : Units) : Prop where
  room : v.rooms[n] = u.rooms[n]
  motorA : v.image.motorA[n] = u.image.motorA[n]
  motorB : v.image.motorB[n] = u.image.motorB[n]
  valve : v.image.roomValve[n] = u.image.roomValve[n]
  pin : v.image.pin[n] = u.image.pin[n]

theorem SameRoom.refl (n : Fin 6) (u : Units) : SameRoom n u u := ⟨rfl, rfl, rfl, rfl, rfl⟩
theorem SameRoom.trans {n : Fin 6} {a b c : Units} (h : SameRoom n a b) (k : SameRoom n b c) : SameRoom n a c :=
  ⟨k.1.trans h.1, k.2.trans h.2, k.3.trans h.3, k.4.trans h.4, k.5.trans h.5⟩

structure JackKeeps (m m' : JackMotion) : Prop where
  requester : m'.requester = m.requester
  kind : m'.kind = m.kind
  mode : m'.mode = m.mode
  hold : m'.hold = m.hold
  route : m'.route = m.route

theorem JackKeeps.refl (m : JackMotion) : JackKeeps m m := ⟨rfl, rfl, rfl, rfl, rfl⟩
theorem JackKeeps.trans {a b c : JackMotion} (h : JackKeeps a b) (k : JackKeeps b c) : JackKeeps a c :=
  ⟨k.1.trans h.1, k.2.trans h.2, k.3.trans h.3, k.4.trans h.4, k.5.trans h.5⟩

structure AwningKeeps (m m' : AwningMotion) : Prop where
  requester : m'.requester = m.requester
  dir : m'.dir = m.dir
  mode : m'.mode = m.mode
  target : m'.target = m.target
  hold : m'.hold = m.hold
  route : m'.route = m.route
theorem AwningKeeps.refl (m : AwningMotion) : AwningKeeps m m := ⟨rfl, rfl, rfl, rfl, rfl, rfl⟩
theorem AwningKeeps.trans {a b c : AwningMotion} (h : AwningKeeps a b) (k : AwningKeeps b c) : AwningKeeps a c :=
  ⟨k.1.trans h.1, k.2.trans h.2, k.3.trans h.3, k.4.trans h.4, k.5.trans h.5, k.6.trans h.6⟩

/-- What the budget and the manifold do to the groups when they admit and open turns. -/
structure Held (u v : Units) : Prop where
  claims : v.claims = u.claims
  waitList : v.waitList = u.waitList
  pendingMarks : v.pendingMarks = u.pendingMarks
  noRoom : ∀ n : Fin 6, u.rooms[n].motion = none → SameRoom n u v
  aRoom : ∀ n : Fin 6, ∀ m, u.rooms[n].motion = some m → ∃ m', v.rooms[n].motion = some m' ∧ KeepsMotion m m'
  noJacks : u.jacks.motion = none → v.jacks = u.jacks ∧ v.image.jackValve = u.image.jackValve
  someJacks : ∀ m, u.jacks.motion = some m → ∃ m', v.jacks.motion = some m' ∧ JackKeeps m m'
  jackFault : v.jacks.fault = u.jacks.fault
  noAwning : u.awning.motion = none → u.awning.retract = none → v.awning = u.awning ∧ v.image.awningMotor =
      u.image.awningMotor
  noMotion : u.awning.motion = none → v.awning.motion = none
  someAwning : ∀ m, u.awning.motion = some m → ∃ m', v.awning.motion = some m' ∧ AwningKeeps m m'
  noRetract : u.awning.retract = none → v.awning.retract = none
  someRetract : ∀ r, u.awning.retract = some r → ∃ r', v.awning.retract = some r' ∧ r'.cause = r.cause
  awningState : v.awning.state = u.awning.state
  ignitionMark : v.awning.ignitionMark = u.awning.ignitionMark

theorem Held.refl (u : Units) : Held u u :=
  ⟨rfl, rfl, rfl, fun n _ => .refl n u, fun _ m h => ⟨m, h, .refl m⟩, fun _ => ⟨rfl, rfl⟩, fun m h => ⟨m, h, .refl
      m⟩, rfl, fun _ _ => ⟨rfl, rfl⟩,
    id, fun m h => ⟨m, h, .refl m⟩, id, fun r h => ⟨r, h, rfl⟩, rfl, rfl⟩

theorem Held.trans {a b c : Units} (h : Held a b) (k : Held b c) : Held a c where
  claims := k.claims.trans h.claims
  waitList := k.waitList.trans h.waitList
  pendingMarks := k.pendingMarks.trans h.pendingMarks
  noRoom n e := (h.noRoom n e).trans (k.noRoom n (by rw [(h.noRoom n e).room]; exact e))
  aRoom n m e := by
    obtain ⟨m', e', q⟩ := h.aRoom n m e
    obtain ⟨m2, e2, q2⟩ := k.aRoom n m' e'
    exact ⟨m2, e2, q.trans q2⟩
  noJacks e := by
    have ⟨h1, h2⟩ := h.noJacks e
    have ⟨k1, k2⟩ := k.noJacks (by rw [h1]; exact e)
    exact ⟨k1.trans h1, k2.trans h2⟩
  someJacks m e := by
    obtain ⟨m', e', q⟩ := h.someJacks m e
    obtain ⟨m2, e2, q2⟩ := k.someJacks m' e'
    exact ⟨m2, e2, q.trans q2⟩
  jackFault := k.jackFault.trans h.jackFault
  noAwning e f := by
    have ⟨h1, h2⟩ := h.noAwning e f
    have ⟨k1, k2⟩ := k.noAwning (by rw [h1]; exact e) (by rw [h1]; exact f)
    exact ⟨k1.trans h1, k2.trans h2⟩
  noMotion e := k.noMotion (h.noMotion e)
  someAwning m e := by
    obtain ⟨m', e', q⟩ := h.someAwning m e
    obtain ⟨m2, e2, q2⟩ := k.someAwning m' e'
    exact ⟨m2, e2, q.trans q2⟩
  noRetract e := k.noRetract (h.noRetract e)
  someRetract r e := by
    obtain ⟨m', e', q⟩ := h.someRetract r e
    obtain ⟨m2, e2, q2⟩ := k.someRetract m' e'
    exact ⟨m2, e2, q2.trans q⟩
  awningState := k.awningState.trans h.awningState
  ignitionMark := k.ignitionMark.trans h.ignitionMark



/-- The parts no room, jack or awning step writes are the same. -/
theorem held_of {u v : Units} (h1 : v.claims = u.claims) (h2 : v.waitList = u.waitList) (h3 : v.pendingMarks =
    u.pendingMarks)
    (h4 : v.rooms = u.rooms) (h5 : v.jacks = u.jacks) (h6 : v.awning = u.awning)
    (h7 : v.image.motorA = u.image.motorA) (h8 : v.image.motorB = u.image.motorB) (h9 : v.image.roomValve =
        u.image.roomValve)
    (h10 : v.image.pin = u.image.pin) (h11 : v.image.jackValve = u.image.jackValve) (h12 : v.image.awningMotor =
        u.image.awningMotor) : Held u v where
  claims := h1
  waitList := h2
  pendingMarks := h3
  noRoom n _ := ⟨by rw [h4], by rw [h7], by rw [h8], by rw [h9], by rw [h10]⟩
  aRoom n m e := ⟨m, by rw [h4]; exact e, .refl m⟩
  noJacks _ := ⟨h5, h11⟩
  someJacks m e := ⟨m, by rw [h5]; exact e, .refl m⟩
  jackFault := by rw [h5]
  noAwning _ _ := ⟨h6, h12⟩
  noMotion e := by rw [h6]; exact e
  someAwning m e := ⟨m, by rw [h6]; exact e, .refl m⟩
  noRetract e := by rw [h6]; exact e
  someRetract r e := ⟨r, by rw [h6]; exact e, rfl⟩
  awningState := by rw [h6]
  ignitionMark := by rw [h6]

theorem ButOut.held {u v : Units} (h : ButOut u v) : Held u v := by
  rw [h.eq]; exact held_of rfl rfl rfl rfl rfl rfl rfl rfl rfl rfl rfl rfl

/-- Only room n and its channels changed. -/
structure OnlyRoom (n : Fin 6) (u v : Units) : Prop where
  claims : v.claims = u.claims
  waitList : v.waitList = u.waitList
  pendingMarks : v.pendingMarks = u.pendingMarks
  other : ∀ k : Fin 6, k ≠ n → SameRoom k u v
  jacks : v.jacks = u.jacks ∧ v.image.jackValve = u.image.jackValve
  awning : v.awning = u.awning ∧ v.image.awningMotor = u.image.awningMotor

theorem OnlyRoom.refl (n : Fin 6) (u : Units) : OnlyRoom n u u := ⟨rfl, rfl, rfl, fun k _ => .refl k u, ⟨rfl, rfl⟩,
    ⟨rfl, rfl⟩⟩
theorem OnlyRoom.trans {n : Fin 6} {a b c : Units} (h : OnlyRoom n a b) (k : OnlyRoom n b c) : OnlyRoom n a c :=
  ⟨k.1.trans h.1, k.2.trans h.2, k.3.trans h.3, fun j e => (h.4 j e).trans (k.4 j e), ⟨k.5.1.trans h.5.1, k.5.2.trans
      h.5.2⟩, ⟨k.6.1.trans h.6.1, k.6.2.trans h.6.2⟩⟩

theorem OnlyRoom.held {n : Fin 6} {u v : Units} (h : OnlyRoom n u v) {m m' : RoomMotion} (hm : u.rooms[n].motion =
    some m)
    (hm' : v.rooms[n].motion = some m') (hk : KeepsMotion m m') : Held u v where
  claims := h.claims
  waitList := h.waitList
  pendingMarks := h.pendingMarks
  noRoom k e := by
    by_cases c : k = n
    · subst c; rw [hm] at e; cases e
    · exact h.other k c
  aRoom k j e := by
    by_cases c : k = n
    · subst c; rw [hm] at e; cases e; exact ⟨m', hm', hk⟩
    · exact ⟨j, by rw [(h.other k c).room]; exact e, .refl j⟩
  noJacks _ := h.jacks
  someJacks m e := ⟨m, by rw [h.jacks.1]; exact e, .refl m⟩
  jackFault := by rw [h.jacks.1]
  noAwning _ _ := h.awning
  noMotion e := by rw [h.awning.1]; exact e
  someAwning m e := ⟨m, by rw [h.awning.1]; exact e, .refl m⟩
  noRetract e := by rw [h.awning.1]; exact e
  someRetract r e := ⟨r, by rw [h.awning.1]; exact e, rfl⟩
  awningState := by rw [h.awning.1]
  ignitionMark := by rw [h.awning.1]

theorem OnlyRoom.heldBy {n : Fin 6} {u v : Units} (h : OnlyRoom n u v) {m : RoomMotion} (f : RoomMotion →
    RoomMotion) (hm : u.rooms[n].motion = some m)
    (hm' : v.rooms[n].motion = u.rooms[n].motion.map f) (hk : KeepsMotion m (f m)) : Held u v :=
  h.held hm (hm'.trans (by rw [hm]; rfl)) hk

theorem vset_ne {α : Type} {N : Nat} (v : Vector α N) (i j : Fin N) (a : α) (h : j ≠ i) : (v.set i a)[j] = v[j] := by
  have : i.val ≠ j.val := fun e => h (Fin.ext e.symm)
  simp [this]
theorem vset_self {α : Type} {N : Nat} (v : Vector α N) (i : Fin N) (a : α) : (v.set i a)[i] = a := by simp

theorem updRoom_only (n : Fin 6) (f : Room → Room) (u : Units) : OnlyRoom n u (updRoom n f u) :=
  ⟨rfl, rfl, rfl, fun _ e => ⟨vset_ne _ _ _ _ e, rfl, rfl, rfl, rfl⟩, ⟨rfl, rfl⟩, ⟨rfl, rfl⟩⟩
theorem updRoomMotion_only (n : Fin 6) (f : RoomMotion → RoomMotion) (u : Units) :
    OnlyRoom n u (updRoomMotion n f u) := updRoom_only n _ u
theorem setRoomState_only (n : Fin 6) (s : RoomState) (u : Units) :
    OnlyRoom n u (setRoomState n s u) := updRoom_only n _ u
theorem clearSync_only (n : Fin 6) (u : Units) : OnlyRoom n u (clearSync n u) := updRoom_only n _ u
theorem writePin_only (n : Fin 6) (b : Bool) (u : Units) : OnlyRoom n u (writePin n b u) :=
  ⟨rfl, rfl, rfl, fun _ e => ⟨rfl, rfl, rfl, rfl, vset_ne _ _ _ _ e⟩, ⟨rfl, rfl⟩, ⟨rfl, rfl⟩⟩
theorem writeRoomValve_only (n : Fin 6) (b : RoomValve) (u : Units) : OnlyRoom n u (writeRoomValve n b u) :=
  ⟨rfl, rfl, rfl, fun _ e => ⟨rfl, rfl, rfl, vset_ne _ _ _ _ e, rfl⟩, ⟨rfl, rfl⟩, ⟨rfl, rfl⟩⟩
theorem writeMotor_only (n : Fin 6) (e : RoomEnd) (b : Motor) (u : Units) : OnlyRoom n u (writeMotor n e b u) := by
  cases e
  · exact ⟨rfl, rfl, rfl, fun k e => ⟨rfl, vset_ne _ _ _ _ e, rfl, rfl, rfl⟩, ⟨rfl, rfl⟩, ⟨rfl, rfl⟩⟩
  · exact ⟨rfl, rfl, rfl, fun k e => ⟨rfl, rfl, vset_ne _ _ _ _ e, rfl, rfl⟩, ⟨rfl, rfl⟩, ⟨rfl, rfl⟩⟩
theorem holdMotor_only (n : Fin 6) (e : RoomEnd) (u : Units) : OnlyRoom n u (holdMotor n e u) := writeMotor_only _ _
    _ _
theorem startMotor_only (x : Ctx) (n : Fin 6) (e : RoomEnd) (d : MotorDir) (u : Units) :
    OnlyRoom n u (startMotor x n e d u) := by
  unfold startMotor
  exact (writeMotor_only n e _ u).trans (updRoom_only n _ _)
theorem startEnd_only (x : Ctx) (n : Fin 6) (m : RoomMotion) (r : Bool) (u : Units) (e : RoomEnd) :
    OnlyRoom n u (startEnd x n m r u e) := by
  unfold startEnd; split
  · exact writeMotor_only _ _ _ _
  · exact startMotor_only _ _ _ _ _
theorem foldl_only {α : Type} {n : Fin 6} (f : Units → α → Units) (hf : ∀ u a, OnlyRoom n u (f u a)) :
    ∀ (l : List α) (u : Units), OnlyRoom n u (l.foldl f u)
  | [], u => .refl n u
  | a :: l, u => (hf u a).trans (foldl_only f hf l _)
theorem keepHeld_only (n : Fin 6) (u : Units) : OnlyRoom n u (keepHeld n u) := by
  unfold keepHeld
  split
  · exact .refl n u
  · split
    · exact clearSync_only _ _
    · exact holdMotor_only _ _ _
theorem startDrive_only (x : Ctx) (n : Fin 6) (m : RoomMotion) (u : Units) :
    OnlyRoom n u (startDrive x n m u) := by
  unfold startDrive
  dsimp only
  split
  · refine OnlyRoom.trans ?_ (keepHeld_only n _)
    refine OnlyRoom.trans ?_ (foldl_only _ (startEnd_only x n m _) _ _)
    split
    · exact .refl n u
    · exact clearSync_only _ _
  · exact writeRoomValve_only _ _ _

theorem startMotor_motion (x : Ctx) (n : Fin 6) (e : RoomEnd) (d : MotorDir) (u : Units) :
    (startMotor x n e d u).rooms[n].motion = u.rooms[n].motion := by
  unfold startMotor updRoom
  dsimp only
  have : (writeMotor n e { dir := d, duty := shapedDuty (x.roomSlow n e) x.now x.now } u).rooms = u.rooms := by cases
      e <;> rfl
  rw [vset_self, this]
  cases e <;> rfl
theorem startEnd_motion (x : Ctx) (n : Fin 6) (m : RoomMotion) (r : Bool) (u : Units) (e : RoomEnd) :
    (startEnd x n m r u e).rooms[n].motion = u.rooms[n].motion := by
  unfold startEnd; split
  · cases e <;> rfl
  · exact startMotor_motion _ _ _ _ _
theorem foldl_motion {α : Type} {n : Fin 6} (f : Units → α → Units) (hf : ∀ u a, (f u a).rooms[n].motion =
    u.rooms[n].motion) :
    ∀ (l : List α) (u : Units), (l.foldl f u).rooms[n].motion = u.rooms[n].motion
  | [], _ => rfl
  | a :: l, u => (foldl_motion f hf l _).trans (hf u a)
theorem clearSync_motion (n : Fin 6) (u : Units) : (clearSync n u).rooms[n].motion = u.rooms[n].motion := by
  unfold clearSync updRoom; rw [vset_self]
theorem holdMotor_rooms (n : Fin 6) (e : RoomEnd) (u : Units) : (holdMotor n e u).rooms = u.rooms := by
  cases e <;> rfl
theorem keepHeld_motion (n : Fin 6) (u : Units) : (keepHeld n u).rooms[n].motion = u.rooms[n].motion := by
  unfold keepHeld
  split
  · rfl
  · split
    · exact clearSync_motion n u
    · exact congrArg (fun v : Vector Room 6 => v[n].motion) (holdMotor_rooms n _ u)
theorem startDrive_motion (x : Ctx) (n : Fin 6) (m : RoomMotion) (u : Units) :
    (startDrive x n m u).rooms[n].motion = u.rooms[n].motion := by
  unfold startDrive
  dsimp only
  split
  · rw [keepHeld_motion, foldl_motion _ (startEnd_motion x n m _)]
    split
    · rfl
    · exact clearSync_motion n u
  · rfl

theorem updRoomMotion_motion (n : Fin 6) (f : RoomMotion → RoomMotion) (u : Units) :
    (updRoomMotion n f u).rooms[n].motion = u.rooms[n].motion.map f := by
  unfold updRoomMotion updRoom; rw [vset_self]
theorem setRoomState_motion (n : Fin 6) (s : RoomState) (u : Units) :
    (setRoomState n s u).rooms[n].motion = u.rooms[n].motion := by
  unfold setRoomState updRoom; rw [vset_self]

theorem roomReady_held (x : Ctx) (n : Fin 6) {u : Units} (hs : ∀ m, u.rooms[n].motion = some m →
    m.step ≠ .pinEngage) : Held u (roomReady x n u) := by
  unfold roomReady
  split
  · exact .refl u
  · next m hm =>
    let f : RoomMotion → RoomMotion := fun k => { k with step := .drive, begun := k.begun || m.pinDeadline.isNone }
    let v := setRoomState n (drivingState m.dir) (updRoomMotion n f u)
    have h1 : OnlyRoom n u v := (updRoomMotion_only n f u).trans (setRoomState_only _ _ _)
    have h2 : v.rooms[n].motion = some (f m) := by
      show (setRoomState n _ _).rooms[n].motion = _
      rw [setRoomState_motion, updRoomMotion_motion, hm]; rfl
    have hk : KeepsMotion m (f m) := ⟨rfl, rfl, rfl, rfl, rfl, rfl, fun e => absurd e (hs m hm)⟩
    show Held u (if _ then startDrive x n m v else v)
    split
    · exact (h1.trans (startDrive_only _ _ _ _)).held hm (by rw [startDrive_motion]; exact h2) hk
    · exact h1.held hm h2 hk

theorem updRoomMotion_held (n : Fin 6) (f : RoomMotion → RoomMotion) (u : Units) (hf : ∀ m, u.rooms[n].motion = some
    m → KeepsMotion m (f m)) : Held u (updRoomMotion n f u) := by
  cases hm : u.rooms[n].motion with
  | none =>
    have : updRoomMotion n f u = u := by
      unfold updRoomMotion updRoom
      have h : ({ u.rooms[n] with motion := Option.map f u.rooms[n].motion } : Room) = u.rooms[n] := by
        rw [hm]; show ({ u.rooms[n] with motion := none } : Room) = _; rw [← hm]
      show ({ u with rooms := u.rooms.set n { u.rooms[n] with motion := Option.map f u.rooms[n].motion } } : Units) =
          u
      rw [h]; simp
    rw [this]; exact .refl u
  | some m => exact (updRoomMotion_only n f u).held hm (by rw [updRoomMotion_motion, hm]; rfl) (hf m hm)

theorem setRoomState_held {n : Fin 6} {s : RoomState} {u : Units} {m : RoomMotion} (hm : u.rooms[n].motion = some m)
    : Held u (setRoomState n s u) :=
  (setRoomState_only n s u).held hm (by rw [setRoomState_motion]; exact hm) (.refl m)

theorem offerRoom_motion (x : Ctx) (n : Fin 6) (b : NoticeBody) (u : Units) :
    (offerRoom x n b u).rooms = u.rooms := by
  rw [(offerRoom_butOut x n b u).eq]

theorem roomResume_held (x : Ctx) (n : Fin 6) (u : Units) : Held u (roomResume x n u) := by
  unfold roomResume
  split
  · exact .refl u
  · next m hm =>
    split
    · next c =>
      simp only [Bool.and_eq_true, decide_eq_true_eq] at c
      dsimp only
      have h1 := (offerRoom_butOut x n (.resumed (.room n)) u).held
      have hr := offerRoom_motion x n (.resumed (.room n)) u
      have hm1 : (offerRoom x n (.resumed (.room n)) u).rooms[n].motion = some m := by rw [hr]; exact hm
      have hne : m.step ≠ .pinEngage := by rw [c.1]; simp
      have h2 (st : RoomStep) (s : RoomState) : Held (offerRoom x n (.resumed (.room n)) u) (setRoomState n s
          (updRoomMotion n (fun m => { m with step := st }) (offerRoom x n (.resumed (.room n)) u))) :=
        ((updRoomMotion_only n _ _).trans (setRoomState_only _ _ _)).heldBy (fun m => { m with step := st }) hm1 (by
            rw [setRoomState_motion, updRoomMotion_motion])
          ⟨rfl, rfl, rfl, rfl, rfl, rfl, fun e => absurd e hne⟩
      repeat' split
      · exact h1.trans (h2 _ _)
      · refine h1.trans (roomReady_held x n ?_)
        intro k hk; rw [hm1] at hk; cases hk; exact hne
      · exact h1.trans (h2 _ _)
    · exact .refl u

/-! Jacks -/
structure OnlyJacks (u v : Units) : Prop where
  claims : v.claims = u.claims
  waitList : v.waitList = u.waitList
  pendingMarks : v.pendingMarks = u.pendingMarks
  rooms : ∀ k : Fin 6, SameRoom k u v
  awning : v.awning = u.awning ∧ v.image.awningMotor = u.image.awningMotor
  fault : v.jacks.fault = u.jacks.fault

theorem OnlyJacks.refl (u : Units) : OnlyJacks u u := ⟨rfl, rfl, rfl, fun k => .refl k u, ⟨rfl, rfl⟩, rfl⟩
theorem OnlyJacks.trans {a b c : Units} (h : OnlyJacks a b) (k : OnlyJacks b c) : OnlyJacks a c :=
  ⟨k.1.trans h.1, k.2.trans h.2, k.3.trans h.3, fun j => (h.4 j).trans (k.4 j), ⟨k.5.1.trans h.5.1, k.5.2.trans
      h.5.2⟩, k.6.trans h.6⟩

theorem OnlyJacks.held {u v : Units} (h : OnlyJacks u v) {m m' : JackMotion} (hm : u.jacks.motion = some m)
    (hm' : v.jacks.motion = some m') (hk : JackKeeps m m') : Held u v where
  claims := h.claims
  waitList := h.waitList
  pendingMarks := h.pendingMarks
  noRoom k e := h.rooms k
  aRoom k j e := ⟨j, by rw [(h.rooms k).room]; exact e, .refl j⟩
  noJacks e := by rw [hm] at e; cases e
  someJacks j e := by rw [hm] at e; cases e; exact ⟨m', hm', hk⟩
  jackFault := h.fault
  noAwning _ _ := h.awning
  noMotion e := by rw [h.awning.1]; exact e
  someAwning m e := ⟨m, by rw [h.awning.1]; exact e, .refl m⟩
  noRetract e := by rw [h.awning.1]; exact e
  someRetract r e := ⟨r, by rw [h.awning.1]; exact e, rfl⟩
  awningState := by rw [h.awning.1]
  ignitionMark := by rw [h.awning.1]

theorem OnlyJacks.heldBy {u v : Units} (h : OnlyJacks u v) {m : JackMotion} (f : JackMotion →
    JackMotion) (hm : u.jacks.motion = some m)
    (hm' : v.jacks.motion = u.jacks.motion.map f) (hk : JackKeeps m (f m)) : Held u v :=
  h.held hm (hm'.trans (by rw [hm]; rfl)) hk

/-- A jack step: the set's motion is the old one but for the step's fields. -/
theorem setJackStep_held (st : JackStep) (s : JackSetState) (d : Option CoachTime) (v : JackValve) (p : Fin 6 →
    Bool) {u : Units} {m : JackMotion}
    (hm : u.jacks.motion = some m) : Held u (setJackStep st s d (driveJacks v p u)) :=
  OnlyJacks.heldBy ⟨rfl, rfl, rfl, fun _ => ⟨rfl, rfl, rfl, rfl, rfl⟩, ⟨rfl, rfl⟩, rfl⟩
    (fun m => { m with step := st, deadline := d, resume := none }) hm
    rfl ⟨rfl, rfl, rfl, rfl, rfl⟩

theorem clearLift_held {u : Units} {m : JackMotion} (hm : u.jacks.motion = some m) : Held u (clearLift u) :=
  OnlyJacks.heldBy ⟨rfl, rfl, rfl, fun _ => ⟨rfl, rfl, rfl, rfl, rfl⟩, ⟨rfl, rfl⟩, rfl⟩
    (fun m => { m with liftAxis := none, lifted := [], threshold := 0 }) hm
    rfl ⟨rfl, rfl, rfl, rfl, rfl⟩
theorem clearLift_motion {u : Units} {m : JackMotion} (hm : u.jacks.motion = some m) :
    (clearLift u).jacks.motion = some { m with liftAxis := none, lifted := [], threshold := 0 } := by
  show Option.map _ u.jacks.motion = _; rw [hm]; rfl

theorem beginSettle_held (x : Ctx) {u : Units} {m : JackMotion} (hm : u.jacks.motion = some m) :
    Held u (beginSettle x u) := by
  refine (clearLift_held hm).trans ?_
  exact OnlyJacks.heldBy ⟨rfl, rfl, rfl, fun k => ⟨rfl, rfl, rfl, rfl, rfl⟩, ⟨rfl, rfl⟩, rfl⟩
    (fun m => { m with step := .settle, deadline := some (after x.now Config.settleMs), resume := none })
        (clearLift_motion hm) rfl ⟨rfl, rfl, rfl, rfl, rfl⟩

theorem beginReseek_held (x : Ctx) {u : Units} {m : JackMotion} (hm : u.jacks.motion = some m) :
    Held u (beginReseek x u) :=
  (clearLift_held hm).trans (setJackStep_held _ _ _ _ _ (clearLift_motion hm))

theorem offerJacks_jacks (x : Ctx) (b : NoticeBody) (u : Units) : (offerJacks x b u).jacks = u.jacks := by
  rw [(offerJacks_butOut x b u).eq]

theorem jackTurnOpen_held (x : Ctx) (u : Units) : Held u (jackTurnOpen x u) := by
  unfold jackTurnOpen
  split
  · exact .refl u
  · next m hm =>
    split
    · split
      · exact setJackStep_held _ _ _ _ _ hm
      · exact setJackStep_held _ _ _ _ _ hm
      · exact setJackStep_held _ _ _ _ _ hm
      · exact setJackStep_held _ _ _ _ _ hm
    · dsimp only
      have h1 := (offerJacks_butOut x (.resumed .jacks) u).held
      have hm1 : (offerJacks x (.resumed .jacks) u).jacks.motion = some m := by rw [offerJacks_jacks]; exact hm
      refine h1.trans ?_
      split
      · exact beginSettle_held x hm1
      · exact beginSettle_held x hm1
      · split
        · exact beginReseek_held x hm1
        · exact beginSettle_held x hm1
      · exact setJackStep_held _ _ _ _ _ hm1
      · exact setJackStep_held _ _ _ _ _ hm1
      · exact setJackStep_held _ _ _ _ _ hm1
    · exact .refl u

theorem roomTurnOpen_held (x : Ctx) (n : Fin 6) (u : Units) : Held u (roomTurnOpen x n u) := by
  unfold roomTurnOpen
  split
  · exact .refl u
  · next m hm =>
    dsimp only
    have h1 : Held u (updRoomMotion n (fun m => { m with lostTurn := false }) u) := updRoomMotion_held n _ u fun m _
        => ⟨rfl, rfl, rfl, rfl, rfl, rfl, fun h => ⟨h, rfl⟩⟩
    have hm1 : (updRoomMotion n (fun m => { m with lostTurn := false }) u).rooms[n].motion = some { m with lostTurn
        := false } := by
      rw [updRoomMotion_motion, hm]; rfl
    split
    · next c =>
      refine h1.trans (roomReady_held x n ?_)
      intro k hk; rw [hm1] at hk; cases hk; show m.step ≠ _; rw [c]; simp
    split
    · exact h1.trans (roomResume_held x n _)
    · exact h1

theorem updManifold_held (f : Manifold → Manifold) (u : Units) : Held u (updManifold u f) :=
  held_of rfl rfl rfl rfl rfl rfl rfl rfl rfl rfl rfl rfl
theorem writePump_held (x : Ctx) (b : Bool) (u : Units) : Held u (writePump x b u) := by
  unfold writePump; split
  · exact .refl u
  · exact held_of rfl rfl rfl rfl rfl rfl rfl rfl rfl rfl rfl rfl
theorem turnOpen_held (x : Ctx) (k : ManifoldUser) (u : Units) : Held u (turnOpen x k u) := by
  unfold turnOpen; split
  · exact roomTurnOpen_held _ _ _
  · exact jackTurnOpen_held _ _
theorem runTurn_held (x : Ctx) (u : Units) : Held u (runTurn x u) := by
  unfold runTurn
  dsimp only
  refine (updManifold_held (fun f => { f with state := .running }) u).trans ?_
  split
  · exact (writePump_held _ _ _).trans (turnOpen_held _ _ _)
  · exact .refl _
theorem budgetAsk_held (x : Ctx) (k : Consumer) (u : Units) : Held u (budgetAsk x k u).1 := by
  unfold budgetAsk
  dsimp only
  repeat' split
  all_goals first | exact .refl u | exact held_of rfl rfl rfl rfl rfl rfl rfl rfl rfl rfl rfl rfl
theorem askPump_held (x : Ctx) (u : Units) : Held u (askPump x u) := by
  unfold askPump
  dsimp only
  split
  · exact (budgetAsk_held _ _ _).trans (runTurn_held _ _)
  · exact (budgetAsk_held _ _ _).trans (updManifold_held _ _)
theorem beginTurn_held (x : Ctx) (k : ManifoldUser) (u : Units) : Held u (beginTurn x k u) := by
  unfold beginTurn
  dsimp only
  refine (updManifold_held (fun f => { f with user := some k }) u).trans ?_
  split
  · exact askPump_held _ _
  · exact held_of rfl rfl rfl rfl rfl rfl rfl rfl rfl rfl rfl rfl
theorem nextTurn_held (x : Ctx) (u : Units) : Held u (nextTurn x u) := by
  unfold nextTurn; split
  · exact updManifold_held _ _
  · exact (updManifold_held _ _).trans (beginTurn_held _ _ _)

/-! Awning -/
theorem setAwningStep_held (st : AwningStep) (d : Option CoachTime) (u : Units) : Held u (setAwningStep st d u) := by
  unfold setAwningStep updAwning
  have hself : ∀ a : Awning, a.motion = none → a.retract = none → (match a.retract with
      | some r => { a with retract := some { r with step := st, dwellEnd := d } }
      | none => { a with motion := a.motion.map fun m => { m with step := st, dwellEnd := d } } : Awning) = a := by
    intro a h1 h2; obtain ⟨s, m, r, i, p⟩ := a; dsimp only at h1 h2; subst h1; subst h2; rfl
  constructor
  case noRoom => exact fun n _ => ⟨rfl, rfl, rfl, rfl, rfl⟩
  case aRoom => exact fun n m e => ⟨m, e, .refl m⟩
  case noJacks => exact fun _ => ⟨rfl, rfl⟩
  case someJacks => exact fun m e => ⟨m, e, .refl m⟩
  case noAwning => exact fun h1 h2 => ⟨hself _ h1 h2, rfl⟩
  case noMotion => intro h; dsimp only; split <;> simp [h]
  case someAwning =>
    intro m h; dsimp only; split
    · exact ⟨m, h, .refl m⟩
    · exact ⟨{ m with step := st, dwellEnd := d }, by simp [h], ⟨rfl, rfl, rfl, rfl, rfl, rfl⟩⟩
  case noRetract => intro h; dsimp only; simp [h]
  case someRetract => intro r h; dsimp only; simp [h]
  case awningState => dsimp only; split <;> rfl
  case ignitionMark => dsimp only; split <;> rfl
  all_goals rfl

theorem setAwningStep_step (st : AwningStep) (d : Option CoachTime) (u : Units) :
    (awningStep (setAwningStep st d u)).isSome = (awningStep u).isSome := by
  unfold setAwningStep updAwning awningStep
  dsimp only
  cases h1 : u.awning.retract <;> cases h2 : u.awning.motion <;> simp

theorem startAwning_held (x : Ctx) {u : Units} (hs : u.awning.motion.isSome ∨ u.awning.retract.isSome) :
    Held u (startAwning x u) := by
  have hno : u.awning.motion = none → u.awning.retract = none → False := by
    intro h1 h2; rw [h1, h2] at hs; simp at hs
  have h1 := setAwningStep_held .drive none u
  have h2 : ∀ (v : Units) (m : Motor) (r : CoachTime), Held u v → Held u (updAwning (fun a => { a with ramp := r })
      (writeAwningMotor m v)) := by
    intro v m r h
    exact ⟨h.1, h.2, h.3, fun n e => ⟨(h.4 n e).1, (h.4 n e).2, (h.4 n e).3, (h.4 n e).4, (h.4 n e).5⟩, h.5, h.6,
        h.7, h.8, fun a b => (hno a b).elim, h.10, h.11, h.12, h.13, h.14, h.15⟩
  have h3 : ∀ (v : Units) (m : Motor), Held u v → Held u (writeAwningMotor m v) := by
    intro v m h
    exact ⟨h.1, h.2, h.3, fun n e => ⟨(h.4 n e).1, (h.4 n e).2, (h.4 n e).3, (h.4 n e).4, (h.4 n e).5⟩, h.5, h.6,
        h.7, h.8, fun a b => (hno a b).elim, h.10, h.11, h.12, h.13, h.14, h.15⟩
  unfold startAwning
  dsimp only
  split
  · exact h3 _ _ h1
  · exact h2 _ _ _ h1

theorem pinGranted_held (x : Ctx) (n : Fin 6) (u : Units) : Held u (pinGranted x n u) := by
  unfold pinGranted
  split
  · exact .refl u
  · next m hm =>
    dsimp only
    have h1 : OnlyRoom n u (updRoomMotion n (fun m => { m with lostPin := false, pinDeadline := some (after x.now
        (x.timing 4)) }) (writePin n true u)) :=
      (writePin_only n true u).trans (updRoomMotion_only n _ _)
    have hm1 : (updRoomMotion n (fun m => { m with lostPin := false, pinDeadline := some (after x.now (x.timing 4))
        }) (writePin n true u)).rooms[n].motion = some { m with lostPin := false, pinDeadline := some (after x.now
        (x.timing 4)) } := by
      rw [updRoomMotion_motion]; show Option.map _ u.rooms[n].motion = _; rw [hm]; rfl
    have h2 := h1.held hm hm1 ⟨rfl, rfl, rfl, rfl, rfl, rfl, fun h => ⟨h, rfl⟩⟩
    split
    · next c =>
      refine (h1.trans ((updRoomMotion_only n _ _).trans (setRoomState_only n _ _))).held hm
        (m' := { m with lostPin := false, pinDeadline := some (after x.now (x.timing 4)), step := .unpin }) ?_
        ⟨rfl, rfl, rfl, rfl, rfl, rfl, fun h => by rw [c] at h; cases h⟩
      rw [setRoomState_motion, updRoomMotion_motion, hm1]; rfl
    · exact h2.trans (offerRoom_butOut _ _ _ _).held
    · split
      · exact h2.trans (roomResume_held x n _)
      · exact h2

theorem driveGranted_held (x : Ctx) (n : Fin 6) (u : Units) : Held u (driveGranted x n u) := by
  unfold driveGranted
  split
  · exact .refl u
  · next m hm =>
    dsimp only
    have h1 : Held u (updRoomMotion n (fun m => { m with lostDrive := false }) u) := updRoomMotion_held n _ u fun m _
        => ⟨rfl, rfl, rfl, rfl, rfl, rfl, fun h => ⟨h, rfl⟩⟩
    have hm1 : (updRoomMotion n (fun m => { m with lostDrive := false }) u).rooms[n].motion = some { m with lostDrive
        := false } := by
      rw [updRoomMotion_motion, hm]; rfl
    split
    · next c =>
      refine h1.trans (roomReady_held x n ?_)
      intro k hk; rw [hm1] at hk; cases hk; show m.step ≠ _; rw [c]; simp
    split
    · exact h1.trans (roomResume_held x n _)
    · exact h1

theorem awningStep_some {u : Units} {st : AwningStep} (h : awningStep u = some st) :
    u.awning.motion.isSome ∨ u.awning.retract.isSome := by
  unfold awningStep at h
  split at h
  · next e => right; rw [e]; rfl
  · next e => left; rw [e]; rfl
  · cases h

theorem awningGranted_held (x : Ctx) (b : Bool) (u : Units) : Held u (awningGranted x b u) := by
  unfold awningGranted
  dsimp only
  have h1 : Held u (if b = true then offerAwning x (.resumed .awning) u else u) := by
    split
    · exact (offerAwning_butOut _ _ _).held
    · exact .refl u
  generalize (if b = true then offerAwning x (.resumed .awning) u else u) = w at h1 ⊢
  refine h1.trans ?_
  split
  · next e =>
    split
    · exact .refl _
    · exact startAwning_held x (awningStep_some e)
  · next e => exact startAwning_held x (awningStep_some e)
  · exact .refl _

theorem granted_held (x : Ctx) (w : BudgetWait) (u : Units) : Held u (granted x w u) := by
  unfold granted; split
  · exact runTurn_held _ _
  · exact driveGranted_held _ _ _
  · exact pinGranted_held _ _ _
  · exact awningGranted_held _ _ _
theorem admitQueued_held (x : Ctx) (w : BudgetWait) (u : Units) : Held u (admitQueued x w u) := by
  unfold admitQueued
  refine Held.trans ?_ (granted_held x w _)
  exact held_of rfl rfl rfl rfl rfl rfl rfl rfl rfl rfl rfl rfl
theorem passHeads_held (x : Ctx) : ∀ (n : Nat) (u : Units), Held u (passHeads x n u)
  | 0, u => .refl u
  | n + 1, u => by
    unfold passHeads
    repeat' split
    · exact .refl u
    · exact (admitQueued_held _ _ _).trans (passHeads_held x n _)
    · exact .refl u
theorem passAwning_held (x : Ctx) (u : Units) : Held u (passAwning x u) := by
  unfold passAwning
  repeat' split
  · exact admitQueued_held _ _ _
  · exact .refl u
  · exact .refl u
theorem admissionPass_held (x : Ctx) (u : Units) : Held u (admissionPass x u) := by
  unfold admissionPass; split
  · exact (passAwning_held x u).trans (passHeads_held x 14 _)
  · exact .refl u
theorem giveUp_held (x : Ctx) (ks : List Consumer) (u : Units) : Held u (giveUp x ks u) := by
  unfold giveUp
  have h : Held u (budgetDrop ks u).1 := held_of rfl rfl rfl rfl rfl rfl rfl rfl rfl rfl rfl rfl
  dsimp only
  split
  · exact h.trans (admissionPass_held _ _)
  · exact h
theorem turnEnd_held (x : Ctx) (u : Units) : Held u (turnEnd x u) := by
  unfold turnEnd; split
  · exact updManifold_held _ _
  · exact (((writePump_held x false u).trans (giveUp_held _ _ _)).trans (updManifold_held _ _)).trans (nextTurn_held
      _ _)
  · exact (((writePump_held x false u).trans (giveUp_held _ _ _)).trans (updManifold_held _ _)).trans (nextTurn_held
      _ _)
  · exact .refl u
  · exact .refl u
theorem leaveManifold_held (x : Ctx) (k : ManifoldUser) (u : Units) : Held u (leaveManifold x k u) := by
  unfold leaveManifold; split
  · exact turnEnd_held _ _
  · exact updManifold_held _ _
theorem roomRelease_held (x : Ctx) (n : Fin 6) (u : Units) : Held u (roomRelease x n u) :=
  (giveUp_held _ _ _).trans (leaveManifold_held _ _ _)

/-! ## The ends of motions -/

/-- A group's motion and channels left as Held leaves them. -/
def GroupHeld (g : Group) (u v : Units) : Prop :=
  match g with
  | .room n => (u.rooms[n].motion = none → SameRoom n u v) ∧ ∀ m, u.rooms[n].motion = some m →
      ∃ m', v.rooms[n].motion = some m' ∧ KeepsMotion m m'
  | .jacks => (u.jacks.motion = none → v.jacks = u.jacks ∧ v.image.jackValve = u.image.jackValve)
      ∧ (∀ m, u.jacks.motion = some m → ∃ m', v.jacks.motion = some m' ∧ JackKeeps m m')
  | .awning => (u.awning.motion = none → u.awning.retract = none → v.awning = u.awning ∧ v.image.awningMotor =
      u.image.awningMotor)
      ∧ (u.awning.motion = none → v.awning.motion = none)
      ∧ (∀ m, u.awning.motion = some m → ∃ m', v.awning.motion = some m' ∧ AwningKeeps m m')
      ∧ (u.awning.retract = none → v.awning.retract = none)
      ∧ (∀ r, u.awning.retract = some r → ∃ r', v.awning.retract = some r' ∧ r'.cause = r.cause)
      ∧ v.awning.state = u.awning.state

theorem Held.group {u v : Units} (h : Held u v) (g : Group) : GroupHeld g u v := by
  cases g with
  | room n => exact ⟨h.noRoom n, h.aRoom n⟩
  | jacks => exact ⟨h.noJacks, h.someJacks⟩
  | awning => exact ⟨h.noAwning, h.noMotion, h.someAwning, h.noRetract, h.someRetract, h.awningState⟩

theorem GroupHeld.refl (g : Group) (u : Units) : GroupHeld g u u := (Held.refl u).group g

theorem GroupHeld.trans {g : Group} {a b c : Units} (h : GroupHeld g a b) (k : GroupHeld g b c) :
    GroupHeld g a c := by
  cases g with
  | room n =>
    refine ⟨fun e => (h.1 e).trans (k.1 (by rw [(h.1 e).room]; exact e)), fun m e => ?_⟩
    obtain ⟨m', e', q⟩ := h.2 m e
    obtain ⟨m2, e2, q2⟩ := k.2 m' e'
    exact ⟨m2, e2, q.trans q2⟩
  | jacks =>
    refine ⟨fun e => ?_, fun m e => ?_⟩
    · have ⟨h1, h2⟩ := h.1 e
      have ⟨k1, k2⟩ := k.1 (by rw [h1]; exact e)
      exact ⟨k1.trans h1, k2.trans h2⟩
    · obtain ⟨m', e', q⟩ := h.2 m e
      obtain ⟨m2, e2, q2⟩ := k.2 m' e'
      exact ⟨m2, e2, q.trans q2⟩
  | awning =>
    refine ⟨fun e f => ?_, fun e => k.2.1 (h.2.1 e), fun m e => ?_, fun e => k.2.2.2.1 (h.2.2.2.1 e), fun r e => ?_,
        k.2.2.2.2.2.trans h.2.2.2.2.2⟩
    · have ⟨h1, h2⟩ := h.1 e f
      have ⟨k1, k2⟩ := k.1 (by rw [h1]; exact e) (by rw [h1]; exact f)
      exact ⟨k1.trans h1, k2.trans h2⟩
    · obtain ⟨m', e', q⟩ := h.2.2.1 m e
      obtain ⟨m2, e2, q2⟩ := k.2.2.1 m' e'
      exact ⟨m2, e2, q.trans q2⟩
    · obtain ⟨m', e', q⟩ := h.2.2.2.2.1 r e
      obtain ⟨m2, e2, q2⟩ := k.2.2.2.2.1 m' e'
      exact ⟨m2, e2, q2.trans q⟩

/-- Everything but one group, its claim and its channels is left as Held leaves it. -/
structure HeldBut (g : Group) (u v : Units) : Prop where
  waitList : v.waitList = u.waitList
  pendingMarks : v.pendingMarks = u.pendingMarks
  claims : ∀ k, k ≠ g → claimOf v k = claimOf u k
  groups : ∀ k, k ≠ g → GroupHeld k u v

theorem HeldBut.refl (g : Group) (u : Units) : HeldBut g u u := ⟨rfl, rfl, fun _ _ => rfl, fun k _ => .refl k u⟩
theorem HeldBut.trans {g : Group} {a b c : Units} (h : HeldBut g a b) (k : HeldBut g b c) : HeldBut g a c :=
  ⟨k.1.trans h.1, k.2.trans h.2, fun j e => (k.3 j e).trans (h.3 j e), fun j e => (h.4 j e).trans (k.4 j e)⟩
theorem Held.but {g : Group} {u v : Units} (h : Held u v) : HeldBut g u v :=
  ⟨h.waitList, h.pendingMarks, fun k _ => by unfold claimOf; rw [h.claims], fun k _ => h.group k⟩

theorem sameRoom_group {n : Fin 6} {u v : Units} (h : SameRoom n u v) : GroupHeld (.room n) u v :=
  ⟨fun _ => h, fun m e => ⟨m, by rw [h.room]; exact e, .refl m⟩⟩
theorem sameJacks_group {u v : Units} (h1 : v.jacks = u.jacks) (h2 : v.image.jackValve = u.image.jackValve) :
    GroupHeld .jacks u v :=
  ⟨fun _ => ⟨h1, h2⟩, fun m e => ⟨m, by rw [h1]; exact e, .refl m⟩⟩
theorem sameAwning_group {u v : Units} (h1 : v.awning = u.awning) (h2 : v.image.awningMotor = u.image.awningMotor) :
    GroupHeld .awning u v :=
  ⟨fun _ _ => ⟨h1, h2⟩, fun e => by rw [h1]; exact e, fun m e => ⟨m, by rw [h1]; exact e, .refl m⟩,
    fun e => by rw [h1]; exact e, fun r e => ⟨r, by rw [h1]; exact e, rfl⟩, by rw [h1]⟩

theorem OnlyRoom.but {n : Fin 6} {u v : Units} (h : OnlyRoom n u v) : HeldBut (.room n) u v where
  waitList := h.waitList
  pendingMarks := h.pendingMarks
  claims k _ := by unfold claimOf; rw [h.claims]
  groups k e := by
    cases k with
    | room j => exact sameRoom_group (h.other j fun c => e (by rw [c]))
    | jacks => exact sameJacks_group h.jacks.1 h.jacks.2
    | awning => exact sameAwning_group h.awning.1 h.awning.2

theorem groupIdx_inj {g h : Group} (e : groupIdx g = groupIdx h) : g = h := by
  cases g with
  | room n =>
    cases h with
    | room k =>
      have e' : n.val = k.val := congrArg (fun i : Fin 8 => i.val) e
      exact congrArg Group.room (Fin.ext e')
    | jacks => exact absurd (congrArg (fun i : Fin 8 => i.val) e) (Nat.ne_of_lt n.isLt)
    | awning => exact absurd (congrArg (fun i : Fin 8 => i.val) e) (Nat.ne_of_lt (Nat.lt_succ_of_lt n.isLt))
  | jacks =>
    cases h with
    | room k => exact absurd (congrArg (fun i : Fin 8 => i.val) e).symm (Nat.ne_of_lt k.isLt)
    | jacks => rfl
    | awning => cases e
  | awning =>
    cases h with
    | room k => exact absurd (congrArg (fun i : Fin 8 => i.val) e).symm (Nat.ne_of_lt (Nat.lt_succ_of_lt k.isLt))
    | jacks => cases e
    | awning => rfl

theorem claimOf_setClaim (g k : Group) (c : Option Claim) (u : Units) :
    claimOf (setClaim g c u) k = if k = g then c else claimOf u k := by
  unfold claimOf setClaim
  by_cases e : k = g
  · subst e; rw [if_pos rfl]; exact vset_self _ _ _
  · rw [if_neg e]; exact vset_ne _ _ _ _ fun c => e (groupIdx_inj c)

theorem setClaim_but (g : Group) (c : Option Claim) (u : Units) : HeldBut g u (setClaim g c u) where
  waitList := rfl
  pendingMarks := rfl
  claims k e := by rw [claimOf_setClaim, if_neg e]
  groups k _ := by
    cases k with
    | room j => exact sameRoom_group ⟨rfl, rfl, rfl, rfl, rfl⟩
    | jacks => exact sameJacks_group rfl rfl
    | awning => exact sameAwning_group rfl rfl

theorem claimMotionLeft_but (g : Group) (u : Units) : HeldBut g u (claimMotionLeft g u) := by
  unfold claimMotionLeft; repeat' split
  · exact setClaim_but _ _ _
  · exact .refl g u
  · exact .refl g u

theorem motionDone_butOut (x : Ctx) (g : Group) (q : Requester) (r : Route) (res : MotionResult) (u : Units) :
    ButOut u (motionDone x g q r res u) :=
  offerMotion_butOut _ _ _ _ _

theorem stopDrive_only (n : Fin 6) (u : Units) : OnlyRoom n u (stopDrive n u) := by
  unfold stopDrive
  exact (((writeMotor_only n .a _ _).trans (writeMotor_only n .b _ _)).trans (writeRoomValve_only n _ _)).trans
      (clearSync_only n _)
theorem roomOutputsOff_only (n : Fin 6) (u : Units) : OnlyRoom n u (roomOutputsOff n u) := (stopDrive_only n u).trans
    (writePin_only n _ _)
theorem pauseDrive_only (n : Fin 6) (u : Units) : OnlyRoom n u (pauseDrive n u) := by
  unfold pauseDrive
  exact (((holdMotor_only n .a _).trans (holdMotor_only n .b _)).trans (writeRoomValve_only n _ _)).trans
      (clearSync_only n _)
theorem pinEngage_only (x : Ctx) (n : Fin 6) (p : Option MotionResult) (u : Units) :
    OnlyRoom n u (pinEngage x n p u) :=
  (updRoomMotion_only n _ u).trans (setRoomState_only n _ _)

/-- Room n with every output off. -/
structure RoomOff (n : Fin 6) (u : Units) : Prop where
  motorA : u.image.motorA[n] = {}
  motorB : u.image.motorB[n] = {}
  valve : u.image.roomValve[n] = .off
  pin : u.image.pin[n] = false

theorem SameRoom.off {n : Fin 6} {u v : Units} (h : SameRoom n u v) (k : RoomOff n u) : RoomOff n v :=
  ⟨h.motorA.trans k.1, h.motorB.trans k.2, h.valve.trans k.3, h.pin.trans k.4⟩

theorem roomOutputsOff_off (n : Fin 6) (u : Units) : RoomOff n (roomOutputsOff n u) := by
  constructor <;> simp [roomOutputsOff, stopDrive, writePin, clearSync, updRoom, writeRoomValve, writeMotor,
      updImage, imageWithMotor]

theorem roomOutputsOff_motion (n : Fin 6) (u : Units) : (roomOutputsOff n u).rooms[n].motion = u.rooms[n].motion := by
  show (clearSync n (writeRoomValve n .off (writeMotor n .b {} (writeMotor n .a {} u)))).rooms[n].motion = _
  rw [clearSync_motion]; rfl

/-- What the end of a room's motion leaves (R97). -/
theorem endRoom_spec (x : Ctx) (n : Fin 6) (res : MotionResult) (st : RoomState) {u : Units} {m : RoomMotion} (hm :
    u.rooms[n].motion = some m) :
    HeldBut (.room n) u (endRoom x n res st u) ∧ (endRoom x n res st u).rooms[n].motion = none ∧ (endRoom x n res st
        u).rooms[n].state = st
      ∧ RoomOff n (endRoom x n res st u)
      ∧ claimOf (endRoom x n res st u) (.room n) = (match claimOf u (.room n) with
        | some c => if c.kind = .transient || c.mark then none else some c
        | none => none) := by
  unfold endRoom
  rw [hm]
  dsimp only
  have h1 : OnlyRoom n u (setRoomState n st (dropRoomMotion n (roomOutputsOff n u))) :=
    ((roomOutputsOff_only n u).trans (updRoom_only n _ _)).trans (setRoomState_only n _ _)
  have hmo : (setRoomState n st (dropRoomMotion n (roomOutputsOff n u))).rooms[n].motion = none := by
    rw [setRoomState_motion]; unfold dropRoomMotion updRoom; rw [vset_self]
  have hst : (setRoomState n st (dropRoomMotion n (roomOutputsOff n u))).rooms[n].state = st := by
    unfold setRoomState updRoom; rw [vset_self]
  have hoff : RoomOff n (setRoomState n st (dropRoomMotion n (roomOutputsOff n u))) := by
    have k := roomOutputsOff_off n u
    exact ⟨k.1, k.2, k.3, k.4⟩
  have h2 := roomRelease_held x n (setRoomState n st (dropRoomMotion n (roomOutputsOff n u)))
  have h3 := (motionDone_butOut x (.room n) m.requester m.route res (roomRelease x n (setRoomState n st
      (dropRoomMotion n (roomOutputsOff n u))))).held
  have h23 := h2.trans h3
  have hs := h23.noRoom n hmo
  have h4 := claimMotionLeft_but (.room n) (motionDone x (.room n) m.requester m.route res (roomRelease x n
      (setRoomState n st (dropRoomMotion n (roomOutputsOff n u)))))
  have hsame : ∀ w : Units, SameRoom n w (claimMotionLeft (.room n) w) := by
    intro w; unfold claimMotionLeft; repeat' split
    all_goals exact ⟨rfl, rfl, rfl, rfl, rfl⟩
  have hs' := hs.trans (hsame _)
  refine ⟨h1.but.trans (h23.but.trans h4), by rw [hs'.room]; exact hmo, by rw [hs'.room]; exact hst, hs'.off hoff, ?_⟩
  have hc : claimOf (motionDone x (.room n) m.requester m.route res (roomRelease x n (setRoomState n st
      (dropRoomMotion n (roomOutputsOff n u))))) (.room n) = claimOf u (.room n) := by
    unfold claimOf; rw [h23.claims, h1.claims]
  unfold claimMotionLeft
  rw [hc]
  cases hcu : claimOf u (.room n) with
  | none => exact hc.trans hcu
  | some c =>
    dsimp only
    split
    · rw [claimOf_setClaim, if_pos rfl]
    · exact hc.trans hcu

theorem endRoom_none (x : Ctx) (n : Fin 6) (res : MotionResult) (st : RoomState) {u : Units} (hm : u.rooms[n].motion
    = none) : endRoom x n res st u = u := by
  unfold endRoom; rw [hm]

theorem endRoom_but (x : Ctx) (n : Fin 6) (res : MotionResult) (st : RoomState) (u : Units) :
    HeldBut (.room n) u (endRoom x n res st u) := by
  cases hm : u.rooms[n].motion with
  | none => rw [endRoom_none _ _ _ _ hm]; exact .refl _ _
  | some m => exact (endRoom_spec x n res st hm).1

theorem onlyJacks_but {u v : Units} (h : OnlyJacks u v) : HeldBut .jacks u v where
  waitList := h.waitList
  pendingMarks := h.pendingMarks
  claims k _ := by unfold claimOf; rw [h.claims]
  groups k e := by
    cases k with
    | room j => exact sameRoom_group (h.rooms j)
    | jacks => exact absurd rfl e
    | awning => exact sameAwning_group h.awning.1 h.awning.2

theorem endJacks_spec (x : Ctx) (res : MotionResult) (st : JackSetState) {u : Units} {m : JackMotion} (hm :
    u.jacks.motion = some m) :
    HeldBut .jacks u (endJacks x res st u) ∧ (endJacks x res st u).jacks.motion = none ∧ (endJacks x res st
        u).jacks.state = st
      ∧ (endJacks x res st u).image.jackValve = Vector.replicate 6 .off
      ∧ claimOf (endJacks x res st u) .jacks = (match claimOf u .jacks with
        | some c => if c.kind = .transient || c.mark then none else some c
        | none => none) := by
  unfold endJacks
  rw [hm]
  dsimp only
  have h1 : OnlyJacks u (dropJackMotion st (closeJackValves u)) := ⟨rfl, rfl, rfl, fun k => ⟨rfl, rfl, rfl, rfl,
      rfl⟩, ⟨rfl, rfl⟩, rfl⟩
  have h2 := leaveManifold_held x .jacks (dropJackMotion st (closeJackValves u))
  have h3 := (motionDone_butOut x .jacks m.requester m.route res (leaveManifold x .jacks (dropJackMotion st
      (closeJackValves u)))).held
  have h23 := h2.trans h3
  have ⟨hs1, hs2⟩ := h23.noJacks rfl
  have h4 := claimMotionLeft_but .jacks (motionDone x .jacks m.requester m.route res (leaveManifold x .jacks
      (dropJackMotion st (closeJackValves u))))
  have hsame : ∀ w : Units, (claimMotionLeft .jacks w).jacks = w.jacks ∧ (claimMotionLeft .jacks w).image = w.image
      := by
    intro w; unfold claimMotionLeft; repeat' split
    all_goals exact ⟨rfl, rfl⟩
  refine ⟨(onlyJacks_but h1).trans (h23.but.trans h4), by rw [(hsame _).1, hs1]; rfl, by rw [(hsame _).1, hs1]; rfl,
      by rw [(hsame _).2, hs2]; rfl, ?_⟩
  have hc : claimOf (motionDone x .jacks m.requester m.route res (leaveManifold x .jacks (dropJackMotion st
      (closeJackValves u)))) .jacks = claimOf u .jacks := by
    unfold claimOf; rw [h23.claims]; rfl
  unfold claimMotionLeft
  rw [hc]
  cases hcu : claimOf u .jacks with
  | none => exact hc.trans hcu
  | some c =>
    dsimp only
    split
    · rw [claimOf_setClaim, if_pos rfl]
    · exact hc.trans hcu

theorem endJacks_none (x : Ctx) (res : MotionResult) (st : JackSetState) {u : Units} (hm : u.jacks.motion = none) :
    endJacks x res st u = u := by
  unfold endJacks; rw [hm]
theorem endJacks_but (x : Ctx) (res : MotionResult) (st : JackSetState) (u : Units) :
    HeldBut .jacks u (endJacks x res st u) := by
  cases hm : u.jacks.motion with
  | none => rw [endJacks_none _ _ _ hm]; exact .refl _ _
  | some m => exact (endJacks_spec x res st hm).1

/-- Only the awning and its motor changed. -/
structure OnlyAwning (u v : Units) : Prop where
  claims : v.claims = u.claims
  waitList : v.waitList = u.waitList
  pendingMarks : v.pendingMarks = u.pendingMarks
  rooms : ∀ k : Fin 6, SameRoom k u v
  jacks : v.jacks = u.jacks ∧ v.image.jackValve = u.image.jackValve

theorem OnlyAwning.but {u v : Units} (h : OnlyAwning u v) : HeldBut .awning u v where
  waitList := h.waitList
  pendingMarks := h.pendingMarks
  claims k _ := by unfold claimOf; rw [h.claims]
  groups k e := by
    cases k with
    | room j => exact sameRoom_group (h.rooms j)
    | jacks => exact sameJacks_group h.jacks.1 h.jacks.2
    | awning => exact absurd rfl e

theorem endAwning_spec (x : Ctx) (res : MotionResult) (st : AwningState) {u : Units} {m : AwningMotion} (hm :
    u.awning.motion = some m) :
    HeldBut .awning u (endAwning x res st u) ∧ (endAwning x res st u).awning.motion = none ∧ (endAwning x res st
        u).awning.state = st
      ∧ (u.awning.retract = none → (endAwning x res st u).awning.retract = none ∧ (endAwning x res st
          u).image.awningMotor = {})
      ∧ claimOf (endAwning x res st u) .awning = (match claimOf u .awning with
        | some c => if c.kind = .transient || c.mark then none else some c
        | none => none) := by
  unfold endAwning
  rw [hm]
  dsimp only
  let w := updAwning (fun a => { a with motion := none, state := st }) (writeAwningMotor {} u)
  have h1 : OnlyAwning u w := ⟨rfl, rfl, rfl, fun k => ⟨rfl, rfl, rfl, rfl, rfl⟩, ⟨rfl, rfl⟩⟩
  have h2 := giveUp_held x [.awning] w
  have h3 := (motionDone_butOut x .awning m.requester m.route res (giveUp x [.awning] w)).held
  have h23 := h2.trans h3
  have h4 := claimMotionLeft_but .awning (motionDone x .awning m.requester m.route res (giveUp x [.awning] w))
  have hsame : ∀ w : Units, (claimMotionLeft .awning w).awning = w.awning ∧ (claimMotionLeft .awning w).image =
      w.image := by
    intro w; unfold claimMotionLeft; repeat' split
    all_goals exact ⟨rfl, rfl⟩
  refine ⟨h1.but.trans (h23.but.trans h4), by rw [(hsame _).1]; exact h23.noMotion rfl, by rw [(hsame _).1]; exact
      h23.awningState, ?_, ?_⟩
  · intro hr
    have ⟨a, b⟩ := h23.noAwning (show w.awning.motion = none from rfl) (show w.awning.retract = none from hr)
    exact ⟨by rw [(hsame _).1, a]; exact hr, by rw [(hsame _).2, b]; rfl⟩
  have hc : claimOf (motionDone x .awning m.requester m.route res (giveUp x [.awning] w)) .awning = claimOf u .awning
      := by
    unfold claimOf; rw [h23.claims]; rfl
  unfold claimMotionLeft
  rw [hc]
  cases hcu : claimOf u .awning with
  | none => exact hc.trans hcu
  | some c =>
    dsimp only
    split
    · rw [claimOf_setClaim, if_pos rfl]
    · exact hc.trans hcu

theorem endAwning_none (x : Ctx) (res : MotionResult) (st : AwningState) {u : Units} (hm : u.awning.motion = none) :
    endAwning x res st u = u := by
  unfold endAwning; rw [hm]
theorem endAwning_but (x : Ctx) (res : MotionResult) (st : AwningState) (u : Units) :
    HeldBut .awning u (endAwning x res st u) := by
  cases hm : u.awning.motion with
  | none => rw [endAwning_none _ _ _ hm]; exact .refl _ _
  | some m => exact (endAwning_spec x res st hm).1

theorem endRetract_none (x : Ctx) (c : Bool) (st : AwningState) {u : Units} (hm : u.awning.retract = none) :
    endRetract x c st u = u := by
  unfold endRetract; rw [hm]

theorem endRetract_spec (x : Ctx) (c : Bool) (st : AwningState) {u : Units} {r : Retract} (hm : u.awning.retract =
    some r) :
    HeldBut .awning u (endRetract x c st u) ∧ (endRetract x c st u).claims = u.claims ∧ (endRetract x c st
        u).awning.retract = none ∧ (endRetract x c st u).awning.state = st
      ∧ (endRetract x c st u).awning.ignitionMark = u.awning.ignitionMark
      ∧ (u.awning.motion = none → (endRetract x c st u).awning.motion = none ∧ (endRetract x c st
          u).image.awningMotor = {}) := by
  unfold endRetract
  rw [hm]
  dsimp only
  let w := updAwning (fun a => { a with retract := none, state := st }) (writeAwningMotor {} u)
  have h1 : OnlyAwning u w := ⟨rfl, rfl, rfl, fun k => ⟨rfl, rfl, rfl, rfl, rfl⟩, ⟨rfl, rfl⟩⟩
  have h2 := giveUp_held x [.awning] w
  have h3 : Held (giveUp x [.awning] w) (if c = true then offerHolder x .awning (.windNotice .retractDone (some
      r.cause)) (giveUp x [.awning] w) else giveUp x [.awning] w) := by
    split
    · exact (offerHolder_butOut _ _ _ _).held
    · exact .refl _
  have h23 := h2.trans h3
  refine ⟨h1.but.trans h23.but, h23.claims, h23.noRetract rfl, h23.awningState, h23.ignitionMark, fun he => ?_⟩
  have ⟨a, b⟩ := h23.noAwning (show w.awning.motion = none from he) (show w.awning.retract = none from rfl)
  exact ⟨(congrArg Awning.motion a).trans he, b⟩

theorem endRetract_but (x : Ctx) (c : Bool) (st : AwningState) (u : Units) :
    HeldBut .awning u (endRetract x c st u) := by
  cases hm : u.awning.retract with
  | none => rw [endRetract_none _ _ _ hm]; exact .refl _ _
  | some m => exact (endRetract_spec x c st hm).1

theorem pinEngage_motion (x : Ctx) (n : Fin 6) (p : Option MotionResult) {u : Units} {m : RoomMotion} (hm :
    u.rooms[n].motion = some m) :
    ∃ m', (pinEngage x n p u).rooms[n].motion = some m' ∧ m'.requester = m.requester ∧ m'.step = .pinEngage ∧
        m'.pending = p := by
  unfold pinEngage
  rw [setRoomState_motion, updRoomMotion_motion, hm]
  exact ⟨_, rfl, rfl, rfl, rfl⟩

theorem stopMotion_but (x : Ctx) (g : Group) (res : MotionResult) (u : Units) :
    HeldBut g u (stopMotion x g res u) := by
  unfold stopMotion
  split
  · next n =>
    split
    · unfold roomStopProcedure
      split
      · exact ((roomOutputsOff_only n u).trans (pinEngage_only x n _ _)).but.trans (roomRelease_held _ _ _).but
      · exact endRoom_but _ _ _ _ _
    · exact .refl _ _
  · exact endJacks_but _ _ _ _
  · exact endAwning_but _ _ _ _

theorem setPending_but (n : Fin 6) (r : Option MotionResult) (u : Units) :
    HeldBut (.room n) u (setPending n r u) := (updRoomMotion_only n _ u).but
theorem stopForLink_but (x : Ctx) (res : MotionResult) (g : Group) (u : Units) :
    HeldBut g u (stopForLink x res g u) := by
  unfold stopForLink
  split
  · split
    · exact setPending_but _ _ _
    · exact stopMotion_but _ _ _ _
  · exact stopMotion_but _ _ _ _
theorem setMark_but (g : Group) (u : Units) : HeldBut g u (setMark g u) := setClaim_but _ _ _
theorem releaseGroup_but (x : Ctx) (l : Link) (res : MotionResult) (u : Units) (g : Group) :
    HeldBut g u (releaseGroup x l res u g) := by
  unfold releaseGroup
  dsimp only
  have h : HeldBut g u (if motionRequester u g = some (.link l) then stopForLink x res g u else u) := by
    split
    · exact stopForLink_but _ _ _ _
    · exact .refl _ _
  generalize (if motionRequester u g = some (.link l) then stopForLink x res g u else u) = v at h ⊢
  refine h.trans ?_
  split
  · exact setMark_but _ _
  · exact setClaim_but _ _ _

theorem detach_held (gs : List Group) (u : Units) : Held u (detach gs u).1 := held_of rfl rfl rfl rfl rfl rfl rfl rfl
    rfl rfl rfl rfl

theorem motionRequester_group {g : Group} {u v : Units} (h : GroupHeld g u v) :
    motionRequester v g = motionRequester u g := by
  cases g with
  | room n =>
    cases hm : u.rooms[n].motion with
    | none => simp only [motionRequester, (h.1 hm).room]
    | some m =>
      obtain ⟨m', e, k⟩ := h.2 m hm
      simp only [motionRequester, hm, e, Option.map_some, k.requester]
  | jacks =>
    cases hm : u.jacks.motion with
    | none => simp only [motionRequester, (h.1 hm).1]
    | some m =>
      obtain ⟨m', e, k⟩ := h.2 m hm
      simp only [motionRequester, hm, e, Option.map_some, k.requester]
  | awning =>
    cases hm : u.awning.motion with
    | none => simp only [motionRequester, hm, h.2.1 hm]
    | some m =>
      obtain ⟨m', e, k⟩ := h.2.2.1 m hm
      simp only [motionRequester, hm, e, Option.map_some, k.requester]

end Sys2Proof.Laws
end

