-- ==== Sys2Proof/Laws/Invariants.lean ====
section
/-! SUPPORT. Properties of the units that are Kept: CHAIN_EN low while the COACH record is ACTIVE, CHAIN_EN low where it
was low, a raised code that stays in its record, notice queues within their bound. -/
namespace Sys2Proof.Laws
open Sys2Proof.Machine Sys2Proof.Safety

/-! ## Records read after records are written -/

theorem subjectIdx_inj {s t : Subject} (h : subjectIdx s = subjectIdx t) : s = t := by
  cases s with
  | coach => cases t with
    | coach => rfl
    | group g =>
      cases g with
      | room n => have := congrArg Fin.val h; simp [subjectIdx, groupIdx] at this; omega
      | jacks => simp [subjectIdx, groupIdx, Fin.ext_iff] at h
      | awning => simp [subjectIdx, groupIdx, Fin.ext_iff] at h
  | group g => cases t with
    | coach =>
      cases g with
      | room n => have := congrArg Fin.val h; simp [subjectIdx, groupIdx] at this; omega
      | jacks => simp [subjectIdx, groupIdx, Fin.ext_iff] at h
      | awning => simp [subjectIdx, groupIdx, Fin.ext_iff] at h
    | group k =>
      cases g <;> cases k <;> simp [subjectIdx, groupIdx, Fin.ext_iff] at h ⊢ <;> omega

/-- A record read after one was written. -/
theorem faults_set_read (v : Vector FaultRecord 9) (s t : Subject) (r : FaultRecord) :
    (v.set (subjectIdx s) r)[subjectIdx t] = if t = s then r else v[subjectIdx t] := by
  by_cases h : t = s
  · subst h; simp
  · have : (subjectIdx s).val ≠ (subjectIdx t).val := fun e => h (subjectIdx_inj (Fin.ext e)).symm
    simp [this, h]

theorem faultOf_setFault (s t : Subject) (r : FaultRecord) (u : Units) :
    faultOf (setFault s r u) t = if t = s then r else faultOf u t := faults_set_read _ _ _ _

theorem faultOf_afterRaise (now : CoachTime) (s t : Subject) (k : FaultCode) (d : Detail) (u : Units) :
    faultOf (afterRaise now s k d u) t = if t = s then raisedRecord now k d (faultOf u s) else faultOf u t :=
  faults_set_read _ _ _ _

theorem faultOf_settleRecords (u : Units) (t : Subject) : faultOf (settleRecords u) t = settleRecord (faultOf u t) := by
  simp [faultOf, settleRecords]

theorem faultOf_same {u v : Units} (h : Same u v) (t : Subject) : faultOf v t = faultOf u t := by
  unfold faultOf; rw [h.faults]

/-- A record after a raise, and what a raise leaves of the other records (R173). -/
theorem faultOf_raise (x : Ctx) (s t : Subject) (k : FaultCode) (d : Detail) (u : Units) :
    faultOf (raise x s k d u) t = if t = s then raisedRecord x.now k d (faultOf u s) else faultOf u t := by
  rw [faultOf_same (raise_same x s k d u), faultOf_afterRaise]

/-- CHAIN_EN after a raise: low for COACH, as it was for a group (R175, R177). -/
theorem chainEn_raise (x : Ctx) (s : Subject) (k : FaultCode) (d : Detail) (u : Units) :
    (raise x s k d u).chainEn = (match s with | .coach => false | .group _ => u.chainEn) :=
  (raise_same x s k d u).chainEn

/-! ## CHAIN_EN is low while the COACH record is ACTIVE -/

/-- The property of the units behind chainLowWhileActive. -/
def chainLow (u : Units) : Prop := coachActive u = true → u.chainEn = false

theorem settleRecord_active {r : FaultRecord} (h : (settleRecord r).state = .active) : r.state = .active := by
  unfold settleRecord at h
  split at h
  · cases h
  · exact h

theorem chainLow_kept : Framed chainLow where
  same h k a := by
    rw [h.chainEn]
    exact k (by unfold coachActive at a ⊢; rwa [faultOf_same h] at a)
  framed hc hf _ k a := by
    rw [hc]
    exact k (by unfold coachActive faultOf at a ⊢; rwa [hf] at a)
  raised t s k d h a := by
    cases s with
    | coach => rfl
    | group g =>
      refine h ?_
      unfold coachActive at a ⊢
      rwa [faultOf_afterRaise, if_neg (by simp)] at a
  unmarked s k h a := by
    refine h ?_
    unfold coachActive at a ⊢
    unfold clearPresent at a
    dsimp only at a
    rw [faultOf_setFault] at a
    split at a
    · next e => subst e; exact a
    · exact a
  settled h a := by
    refine h ?_
    unfold coachActive at a ⊢
    rw [faultOf_settleRecords] at a
    simpa using settleRecord_active (by simpa using a)
  lowered _ _ := rfl

theorem chainLow_echo : KeptByEcho chainLow where
  confirmed s h a := by
    refine h ?_
    unfold coachActive at a ⊢
    rw [faultOf_setFault] at a
    split at a
    · next e => subst e; exact a
    · exact a
  cleared s h a := by
    refine h ?_
    unfold coachActive at a ⊢
    rw [faultOf_setFault] at a
    split at a
    · cases a
    · exact a

theorem holdChainLow_chainLow (u : Units) : chainLow (holdChainLow u) := by
  unfold holdChainLow
  by_cases c : coachActive u = true
  · rw [if_pos c]; exact fun _ => rfl
  · rw [if_neg c]; exact fun a => absurd a c

/-- Whatever a command did, the settlement leaves CHAIN_EN low while the COACH record is ACTIVE (R83, R179). -/
theorem settleUnits_chainLow (x0 : Ctx) (u0 : Units) (x : Ctx) (u : Units) : chainLow (settleUnits x0 u0 x u) := by
  unfold settleUnits
  refine chainLow_kept.toKept.calm
    (clearMarks_calm x (settleSteps_calm x settleFuel (judgeRetract_calm x (.refl _)))) ?_
  exact holdChainLow_chainLow _

theorem finish_chainLow (x0 : Ctx) (u0 : Units) (due : Bool) (x : Ctx) (u : Units) : chainLow (finish x0 u0 due x u) := by
  unfold finish
  refine chainChange_kept chainLow_kept x u0 due ?_
  refine chainLow_kept.toKept.same (stampDrives_same x _) ?_
  exact advance_kept chainLow_kept.toKept x0 u0 x
    (chainLow_kept.toKept.calm (settleClaims_calm x u0 (.refl _)) (settleUnits_chainLow x0 u0 x u))

/-! ## CHAIN_EN does not rise -/

theorem chainNotRisen_kept : Framed (fun u => u.chainEn = false) where
  same h k := h.chainEn.trans k
  framed h _ _ k := h.trans k
  raised t s k d h := by
    cases s with
    | coach => rfl
    | group g => exact h
  unmarked s k h := h
  settled h := h
  lowered _ := rfl

/-! ## A raised code stays in its record -/

theorem codeStands_raised (now : CoachTime) (k : FaultCode) (d : Detail) (r : FaultRecord) :
    (raisedRecord now k d r).codes.any (fun e => e.1 == k) = true := by
  unfold raisedRecord
  dsimp only
  split
  · next h =>
    rw [List.any_eq_true] at h ⊢
    obtain ⟨e, he, hk⟩ := h
    exact ⟨(k, persistent k), List.mem_map.2 ⟨e, he, if_pos hk⟩, beq_self_eq_true k⟩
  · simp

theorem codes_map_any {k : FaultCode} {l : List (FaultCode × Bool)} (f : FaultCode × Bool → FaultCode × Bool)
    (hf : ∀ e ∈ l, (f e).1 = e.1) (h : l.any (fun e => e.1 == k) = true) : (l.map f).any (fun e => e.1 == k) = true := by
  rw [List.any_eq_true] at h ⊢
  obtain ⟨e, he, hk⟩ := h
  exact ⟨f e, List.mem_map.2 ⟨e, he, rfl⟩, by rw [hf e he]; exact hk⟩

theorem codeStands_kept (s : Subject) (k : FaultCode) : Framed (codeStands s k) where
  same h c := by unfold codeStands; rw [faultOf_same h]; exact c
  framed _ h _ c := by unfold codeStands faultOf at *; rw [h]; exact c
  raised t s' k' d h := by
    unfold codeStands
    rw [faultOf_afterRaise]
    split
    · next e =>
      subst e
      by_cases hk : k = k'
      · subst hk; exact codeStands_raised _ _ _ _
      · unfold raisedRecord
        dsimp only
        split
        · refine codes_map_any _ (fun e _ => ?_) h
          split
          · next c => exact (by simpa using c : e.1 = k').symm
          · rfl
        · rw [List.any_append]; simp only [Bool.or_eq_true]; exact .inl h
    · exact h
  unmarked s' k' h := by
    unfold codeStands clearPresent
    dsimp only
    rw [faultOf_setFault]
    split
    · next e =>
      subst e
      refine codes_map_any _ (fun e _ => ?_) h
      split
      · next c => exact (by simpa using c : e.1 = k').symm
      · rfl
    · exact h
  settled h := by
    unfold codeStands
    rw [faultOf_settleRecords]
    unfold settleRecord
    split
    · exact h
    · exact h
  lowered h := h

/-- A raise leaves its code standing in its record. -/
theorem codeStands_raise (x : Ctx) (s : Subject) (k : FaultCode) (d : Detail) (u : Units) :
    codeStands s k (raise x s k d u) := by
  unfold codeStands
  rw [faultOf_raise, if_pos rfl]
  exact codeStands_raised _ _ _ _

/-! ## Notice queues -/

theorem notices_kept : Framed noticesBounded where
  same h n := h.notices n
  framed _ _ h n := h n
  raised _ _ _ _ h := fun l => h l
  unmarked _ _ h := fun l => h l
  settled h := fun l => h l
  lowered h := fun l => h l

theorem notices_echo : KeptByEcho noticesBounded where
  confirmed _ h := fun l => h l
  cleared _ h := fun l => h l

theorem notices_rise (x : Ctx) (f : Flight) (e : Echo) (v : Units) (h : noticesBounded v) :
    noticesBounded (riseChain x f e v) := by
  unfold riseChain
  split
  · exact fun l => h l
  · exact h

/-! ## A frame in flight -/

theorem noFlight_kept : Kept (fun u => u.flight.isNone = true) where
  same h k := h.flight.trans k
  raised _ _ _ _ h := h
  unmarked _ _ h := h
  settled h := h
  lowered h := h

/-- The settlement of an event that finds no frame in flight starts none before the driver chain does. -/
theorem beforeChain_noFlight (x0 : Ctx) (u0 : Units) (x : Ctx) {u : Units} (h : u.flight.isNone = true) :
    (stampDrives x (advance x0 u0 x (settleClaims x u0 (settleUnits x0 u0 x u)))).flight.isNone = true :=
  beforeChain_kept noFlight_kept x0 u0 x h

/-- A frame that is due starts where none is in flight (R78). -/
theorem chainChange_due (x : Ctx) (u0 : Units) {v : Units} (k : v.flight.isNone = true) :
    chainChange x u0 true v = startFrame x v := by
  unfold chainChange
  dsimp only
  rw [if_pos k, if_pos (by simp)]

/-- A frame that is due starts in the event that finds none in flight (R78). -/
theorem finish_frameDue (x0 : Ctx) (u0 : Units) (x : Ctx) {u : Units} (h : u.flight.isNone = true) :
    finish x0 u0 true x u
      = startFrame x (stampDrives x (advance x0 u0 x (settleClaims x u0 (settleUnits x0 u0 x u)))) := by
  unfold finish
  exact chainChange_due x u0 (beforeChain_noFlight x0 u0 x h)

end Sys2Proof.Laws
end

