-- ==== Sys2Proof/Laws/Measured.lean ====
section
/-! SUPPORT. The measured part after every command, said once: `measuredAfter`, with the bounds it keeps. -/
namespace Sys2Proof.Laws
open Sys2Proof.Machine Sys2Proof.Safety

/-- The measured part after a command: requests, transmitters, timers of the sequencers, claims and the map leave it. -/
def measuredAfter (i : Instr) (s : State) : Measured :=
  match i with
  | .powerOnReset pins => Measured.atReset pins 0
  | .xrst pins => keptMeasured pins s
  | .vbatSample v => sampleVbat s.ctx v
  | .ibusSample v => { s.m with ibusRange := sampleRange (inRange 0 4000 v) }
  | .pmanSample v => samplePman s.ctx v
  | .pjSample j v => if pjSampled s.m j then samplePj s.ctx j v else s.m
  | .tiltSample a v => sampleTilt s.ctx a v
  | .roadSpeedWindowEnd => if elapsed s.m.windowStart s.m.now Config.secondMs then endWindow s.ctx else s.m
  | .spdPulse => { s.m with spdCount := s.m.spdCount + 1 }
  | .estopAsserted => if s.m.estop then s.m else { s.m with estop := true }
  | .estopReleased => if s.m.estop then { s.m with estop := false } else s.m
  | .inSwitchChange n e made => if s.ctx.inSwitch n e = made then s.m else switchIn s.m n e made
  | .lockSwitchChange n w made => if lockSwitch s.m n w = made then s.m else switchLock s.m n w made
  | .jackStowedSwitchChange j made => if s.m.jackStowed[j] = made then s.m else switchJack s.m j made
  | .awningStowedSwitchChange made => if s.m.awningStowed = made then s.m else switchAwning s.m made
  | .axisPulse a => s.m.withCounter a (pulsed s.m.now (governed s.ctx s.u a) (s.m.counter a))
  | .anemometerPulse => { s.m with wind := windPulse (s.ctx.awningField 4) s.m.now s.m.wind }
  | .windSecondBoundary =>
    if elapsed s.m.wind.secondStart s.m.now Config.secondMs then { s.m with wind := endSecond s.ctx } else s.m
  | .echoReceived e =>
    match s.u.flight with
    | some f => takeEcho s.m e (firstDifference f.frame e.latched).isSome
    | none => s.m
  | .echoMissing =>
    match s.u.flight with
    | some f =>
      if elapsed f.start s.m.now Config.framePeriodMs then { s.m with mismatch := countFailure s.m.mismatch } else s.m
    | none => s.m
  | .heatRise =>
    if s.u.image.pump && elapsed s.u.manifold.heatStart s.m.now Config.heatRiseMs then
      { s.m with heat := min Config.heatMax (s.m.heat + 1) }
    else s.m
  | .heatFall =>
    if !s.u.image.pump && elapsed s.u.manifold.heatStart s.m.now Config.heatFallMs then
      { s.m with heat := s.m.heat - 1 }
    else s.m
  | _ => s.m

theorem next_m {a t : State} (e : (Host.Outcome.next a : Answer) = .next t) : t.m = a.m := by cases e; rfl

theorem setupEvent_m {s t : State} {c : Setup} (e : setupEvent s c = .next t) : t.m = s.m := by cases e; rfl

theorem receive_m {l : Link} {tag : Byte} {q : Request} {s t : State} (e : receive l tag q s = .next t) : t.m = s.m := by
  unfold receive at e
  have k := next_m e
  rw [settleEvent_m] at k
  exact k

theorem byteReceived_m {l : Link} {b : Byte} {s t : State} (e : execByteReceived l b s = .next t) : t.m = s.m := by
  unfold execByteReceived collectByte at e
  repeat' split at e
  · exact setupEvent_m e
  · exact next_m e
  · exact setupEvent_m e
  · exact setupEvent_m e
  · exact setupEvent_m e
  · exact receive_m e
  · exact setupEvent_m e

/-- The measured part of the state a command answers. -/
theorem exec_m (i : Instr) (s : State) {t : State} (e : exec i s = .next t) : t.m = measuredAfter i s := by
  cases i
  case ping | linkStatus | profileStage | profileCommit | profileAbandon | profileGet | postureGet | claim | release
      | roomMove | roomStop | jackAuto | jackSeek | jackJog | jackRetract | jackStop | awningMove | awningStop
      | stopAll | holdRefresh | attentionSet | linesSet | mapWrite | mapRead | faultGet | faultClear | validFrameReceipt =>
    exact receive_m e
  case byteReceived => exact byteReceived_m e
  all_goals simp only [exec] at e
  all_goals
    simp only [measuredAfter, execPowerOnReset, execXrst, execCrcMismatchDiscard, execLengthDiscard,
      execPartialFrameTimeout, execLineBreak, execFramingError, execReceiverOverrun, execTransmitFrameEnd,
      execSilenceDeadline, execPreemptionTimeReached, execClaimWaitDeadline, execVbatSample, execIbusSample,
      execPmanSample, execPjSample, execTiltSample, execRoadSpeedWindowEnd, execSpdPulse, execEstopAsserted,
      execEstopReleased, execInSwitchChange, execLockSwitchChange, execJackStowedSwitchChange,
      execAwningStowedSwitchChange, execAxisPulse, execStall, execAnemometerPulse, execWindSecondBoundary,
      execLineDebounceChange, execVirtualLineDeadline, execPeriodicFrameStart, execEchoReceived, execEchoMissing,
      execPinTimeout, execRoomDwellEnd, execAwningDwellEnd, execHoldDeadlineExpiry, execSeekTimeout, execSettleEnd,
      execLiftDeadline, execRetractTimeout, execSwitchingEnd, execHeatRise, execHeatFall] at e ⊢
  case powerOnReset => exact next_m e
  case crcMismatchDiscard | lengthDiscard | framingError | receiverOverrun => exact setupEvent_m e
  case partialFrameTimeout =>
    repeat' split at e
    · exact setupEvent_m e
    · exact next_m e
    · exact next_m e
  case lineBreak =>
    split at e
    · exact setupEvent_m e
    · exact next_m e
  all_goals repeat' split at e
  all_goals have k := next_m e; clear e
  all_goals try simp only [unitEvent_m, settleEvent_m] at k
  all_goals simp_all

/-! ## Bounds -/

theorem counter_withCounter (m : Measured) (a b : Axis) (k : Counter) :
    (m.withCounter a k).counter b = if b = a then k else m.counter b := by
  cases a with
  | roomEnd n e =>
    cases e <;> cases b with
    | roomEnd n' e' =>
      cases e' <;> simp [Measured.withCounter, Measured.counter, Vector.getElem_set, Fin.ext_iff, eq_comm]
    | jack j => simp [Measured.withCounter, Measured.counter]
    | awning => simp [Measured.withCounter, Measured.counter]
  | jack j =>
    cases b with
    | roomEnd n' e' => cases e' <;> simp [Measured.withCounter, Measured.counter]
    | jack j' => simp [Measured.withCounter, Measured.counter, Vector.getElem_set, Fin.ext_iff, eq_comm]
    | awning => simp [Measured.withCounter, Measured.counter]
  | awning =>
    cases b with
    | roomEnd n' e' => cases e' <;> simp [Measured.withCounter, Measured.counter]
    | jack j' => simp [Measured.withCounter, Measured.counter]
    | awning => simp [Measured.withCounter, Measured.counter]

theorem pulsed_inRange (now : CoachTime) (d : Int) (k : Counter) : countInRange (pulsed now d k) := by
  unfold countInRange pulsed clampInt
  dsimp only
  omega

theorem homed_inRange {made : Bool} {k : Counter} (h : countInRange k) : countInRange (homed made k) := by
  unfold homed
  split
  · show (-32768 : Int) ≤ 0 ∧ (0 : Int) ≤ 32767
    decide
  · exact h

theorem pushRow_length (row : List Int) (v : Int) : (pushRow row v).length ≤ Config.tiltRow := by
  unfold pushRow Config.tiltRow; dsimp only; rw [List.length_drop, List.length_append]; simp; omega

theorem pushRing_length (ring : List Nat) (v : Nat) : (pushRing ring v).length ≤ Config.windRing := by
  unfold pushRing Config.windRing; dsimp only; rw [List.length_drop, List.length_append]; simp; omega

theorem periodSpeed_le (c p : Nat) : periodSpeed c p ≤ 200 := by
  unfold periodSpeed
  split
  · exact Nat.zero_le _
  · exact Nat.min_le_left _ _

theorem windPulse_bounds {c : Nat} {now : CoachTime} {w : WindMonitor} (h : windInBounds w) : windInBounds (windPulse c now w) := by
  unfold windPulse
  split
  · exact h
  · refine ⟨fun v hv => ?_, fun v hv => ?_, h.2.2⟩
    · simp only [List.mem_append, List.mem_singleton] at hv
      rcases hv with hv | hv
      · exact h.1 v hv
      · exact hv ▸ periodSpeed_le _ _
    · simp only [Option.mem_def, Option.some.injEq] at hv
      exact hv ▸ periodSpeed_le _ _

theorem countFailure_le (n : Nat) : countFailure n ≤ 1 := by
  unfold countFailure failureRaises Config.mismatchMax
  split
  · exact Nat.zero_le _
  · next k => simp at k; omega

/-- The counters a power-on reset leaves are in range (R87). -/
theorem atReset_inRange (pins : ResetPins) (now : CoachTime) (a : Axis) :
    countInRange ((Measured.atReset pins now).counter a) := by
  cases a with
  | roomEnd n e => cases e <;> simp [Measured.counter, Measured.atReset, Counter.atReset, countInRange]
  | jack j => simp [Measured.counter, Measured.atReset, Counter.atReset, countInRange]
  | awning => simp [Measured.counter, Measured.atReset, Counter.atReset, countInRange]

theorem counter_of_eq {m n : Measured} (ha : n.counterA = m.counterA) (hb : n.counterB = m.counterB)
    (hj : n.counterJ = m.counterJ) (hw : n.counterAw = m.counterAw) (a : Axis) : n.counter a = m.counter a := by
  cases a with
  | roomEnd n e => cases e <;> simp only [Measured.counter, ha, hb]
  | jack j => simp only [Measured.counter, hj]
  | awning => simp only [Measured.counter, hw]

/-- Every command keeps the bounds of the measured part. -/
theorem measuredAfter_inBounds (i : Instr) (s : State) (h : measuredInBounds s.m) : measuredInBounds (measuredAfter i s) := by
  have ⟨hc, hheat, hmis, hroad, htx, hty, hwind⟩ := h
  cases i
  case powerOnReset pins =>
    refine ⟨atReset_inRange pins 0, ?_, ?_, ?_, ?_, ?_, ?_, ?_, ?_⟩ <;> simp [measuredAfter, Measured.atReset]
  case xrst pins =>
    refine ⟨fun a => ?_, ?_, ?_, ?_, ?_, ?_, ?_, ?_, ?_⟩
    · have k := counter_of_eq (m := Measured.atReset pins s.m.now) (n := keptMeasured pins s) rfl rfl rfl rfl a
      show countInRange ((keptMeasured pins s).counter a)
      rw [k]
      exact atReset_inRange pins s.m.now a
    · exact hheat
    all_goals simp [measuredAfter, keptMeasured, Measured.atReset]
  case tiltSample a v =>
    have push : ∀ row : List Int, (if tiltOk v then pushRow row v else []).length ≤ Config.tiltRow := by
      intro row
      split
      · exact pushRow_length _ _
      · exact Nat.zero_le _
    cases a with
    | x => exact ⟨hc, hheat, hmis, hroad, push s.m.tiltX, hty, hwind⟩
    | y => exact ⟨hc, hheat, hmis, hroad, htx, push s.m.tiltY, hwind⟩
  case pjSample j v => simp only [measuredAfter]; split <;> exact h
  case roadSpeedWindowEnd =>
    simp only [measuredAfter]
    split
    · exact ⟨hc, hheat, hmis, Nat.min_le_left _ _, htx, hty, hwind⟩
    · exact h
  case estopAsserted => simp only [measuredAfter]; split <;> exact h
  case estopReleased => simp only [measuredAfter]; split <;> exact h
  case inSwitchChange n e made =>
    simp only [measuredAfter]
    split
    · exact h
    · refine ⟨fun a => ?_, ?_, ?_, ?_, ?_, ?_, ?_⟩
      · unfold switchIn
        dsimp only
        rw [counter_withCounter]
        split
        · exact homed_inRange (hc (.roomEnd n e))
        · exact hc a
      all_goals cases e <;> assumption
  case lockSwitchChange => simp only [measuredAfter]; split <;> exact h
  case jackStowedSwitchChange j made =>
    simp only [measuredAfter]
    split
    · exact h
    · refine ⟨fun a => ?_, hheat, hmis, hroad, htx, hty, hwind⟩
      show countInRange ((s.m.withCounter (.jack j) (homed made s.m.counterJ[j])).counter a)
      rw [counter_withCounter]
      split
      · exact homed_inRange (hc (.jack j))
      · exact hc a
  case awningStowedSwitchChange made =>
    simp only [measuredAfter]
    split
    · exact h
    · refine ⟨fun a => ?_, hheat, hmis, hroad, htx, hty, hwind⟩
      show countInRange ((s.m.withCounter .awning (homed made s.m.counterAw)).counter a)
      rw [counter_withCounter]
      split
      · exact homed_inRange (hc .awning)
      · exact hc a
  case axisPulse a =>
    refine ⟨fun b => ?_, ?_, ?_, ?_, ?_, ?_, ?_⟩
    · show countInRange ((s.m.withCounter a _).counter b)
      rw [counter_withCounter]
      split
      · exact pulsed_inRange _ _ _
      · exact hc b
    all_goals (rcases a with ⟨n, _ | _⟩ | j | _) <;> assumption
  case anemometerPulse => exact ⟨hc, hheat, hmis, hroad, htx, hty, windPulse_bounds hwind⟩
  case windSecondBoundary =>
    simp only [measuredAfter]
    split
    · refine ⟨hc, hheat, hmis, hroad, htx, hty, fun v hv => ?_, hwind.2.1, pushRing_length _ _⟩
      cases hv
    · exact h
  case echoReceived e =>
    simp only [measuredAfter]
    split
    · refine ⟨hc, hheat, ?_, hroad, htx, hty, hwind⟩
      unfold takeEcho
      dsimp only
      split
      · exact countFailure_le _
      · exact Nat.zero_le _
    · exact h
  case echoMissing =>
    simp only [measuredAfter]
    repeat' split
    · exact ⟨hc, hheat, countFailure_le _, hroad, htx, hty, hwind⟩
    · exact h
    · exact h
  case heatRise =>
    simp only [measuredAfter]
    split
    · exact ⟨hc, Nat.min_le_left _ _, hmis, hroad, htx, hty, hwind⟩
    · exact h
  case heatFall =>
    simp only [measuredAfter]
    split
    · exact ⟨hc, (Nat.sub_le _ _).trans hheat, hmis, hroad, htx, hty, hwind⟩
    · exact h
  all_goals exact h

end Sys2Proof.Laws
end

