-- ==== Sys2Proof/Laws/Offers.lean ====
section
/-! SUPPORT. What the units do to the ports: `Offered x w v` says that from w to v a port's outgoing part changes
    only by
notices offered in context x, and none is offered at a SILENT link. One lemma for every operation on the units that
answers no request; each is proved from its definition by the lemmas of what it calls. -/
set_option linter.unusedTactic false
set_option linter.unreachableTactic false
set_option linter.unnecessarySeqFocus false
set_option linter.unusedSimpArgs false
namespace Sys2Proof.Laws
open Sys2Proof.Machine

/-- A port after a list of notices offered at one coach time. -/
def offers (t : CoachTime) (bs : List NoticeBody) (p : PortOut) : PortOut :=
  bs.foldl (fun p b => offerPort { stamp := t, body := b } p) p

/-- The outgoing parts moved from w to v by notices offered in context x alone; none at a SILENT link. -/
structure Offered (x : Ctx) (w v : Units) : Prop where
  out : ∀ l : Link, ∃ bs, (x.linked l = false → bs = []) ∧ v.out[linkIdx l] = offers x.now bs w.out[linkIdx l]

@[simp] theorem Offered.refl (x : Ctx) (u : Units) : Offered x u u := ⟨fun _ => ⟨[], fun _ => rfl, rfl⟩⟩
theorem Offered.trans {x : Ctx} {a b c : Units} (h : Offered x a b) (k : Offered x b c) : Offered x a c := by
  refine ⟨fun l => ?_⟩
  obtain ⟨p, hp, ep⟩ := h.1 l
  obtain ⟨q, hq, eq⟩ := k.1 l
  refine ⟨p ++ q, fun e => by rw [hp e, hq e]; rfl, ?_⟩
  rw [eq, ep]; unfold offers; rw [List.foldl_append]
@[simp] theorem Offered.foldl {x : Ctx} {α : Type} {w : Units} (f : Units → α → Units) (hf : ∀ u a, Offered x u (f u
    a)) :
    ∀ (l : List α) {u : Units}, Offered x w u → Offered x w (l.foldl f u)
  | [], _, h => h
  | a :: l, _, h => Offered.foldl f hf l (h.trans (hf _ a))

theorem updOut_offered {x : Ctx} {w u : Units} {l : Link} {b : NoticeBody} (hl : x.linked l = true) (h : Offered x w
    u) :
    Offered x w (updOut u l (offerPort { stamp := x.now, body := b })) := by
  refine h.trans ⟨fun k => ?_⟩
  by_cases e : k = l
  · subst e
    refine ⟨[b], fun c => ?_, vset_self _ _ _⟩
    rw [hl] at c; cases c
  · refine ⟨[], fun _ => rfl, ?_⟩
    exact vset_ne _ _ _ _ fun c => e (linkIdx_inj c)

@[simp] theorem offered_waitList {x : Ctx} {w u : Units} (l : List WaitEntry) (h : Offered x w u) :
    Offered x w { u with waitList := l }
    := ⟨h.1⟩
@[simp] theorem offered_budgetQueue {x : Ctx} {w u : Units} (l : List BudgetWait) (h : Offered x w u) :
    Offered x w { u with budgetQueue
    := l } := ⟨h.1⟩
@[simp] theorem offered_admissions {x : Ctx} {w u : Units} (l : List Admission) (h : Offered x w u) :
    Offered x w { u with admissions := l
    } := ⟨h.1⟩
@[simp] theorem offered_overload {x : Ctx} {w u : Units} (t : Option CoachTime) (h : Offered x w u) :
    Offered x w { u with overload := t }
    := ⟨h.1⟩
@[simp] theorem offered_pendingMarks {x : Ctx} {w u : Units} (v : Vector Bool 24) (h : Offered x w u) :
    Offered x w { u with pendingMarks
    := v } := ⟨h.1⟩
@[simp] theorem offered_ite {x : Ctx} {w a b : Units} {c : Prop} [Decidable c] (ha : Offered x w a) (hb : Offered x w
    b) :
    Offered x w (if c then a else b) := by split <;> assumption

/-! ## Notices -/

@[simp] theorem offerTo_offered {w u : Units} (x : Ctx) (l : Link) (b : NoticeBody) (h : Offered x w u) :
    Offered x w (offerTo x l b u) := by
  unfold offerTo
  split
  · next hl => exact updOut_offered hl h
  · exact h

@[simp] theorem offerAll_offered {w₀ u : Units} (x : Ctx) (b : NoticeBody) (hw : Offered x w₀ u) :
    Offered x w₀ (offerAll x b u) := by
  unfold offerAll
  simp [hw]

@[simp] theorem offerLeast_offered {w₀ u : Units} (x : Ctx) (b : NoticeBody) (hw : Offered x w₀ u) :
    Offered x w₀ (offerLeast x b u) := by
  unfold offerLeast
  (repeat' split) <;> simp [hw]

@[simp] theorem offerRoute_offered {w₀ u : Units} (x : Ctx) (r : Route) (b : NoticeBody) (hw : Offered x w₀ u) :
    Offered x w₀ (offerRoute x r b u) := by
  unfold offerRoute
  (try dsimp only)
  (repeat' split) <;> first
    | exact hw
    | (simp (maxDischargeDepth := 40) [hw]; done)
    | exact ⟨hw.1⟩

@[simp] theorem offerMotion_offered {w₀ u : Units} (x : Ctx) (q : Requester) (r : Route) (b : NoticeBody) (hw :
    Offered x
    w₀ u) :
    Offered x w₀ (offerMotion x q r b u) := by
  unfold offerMotion
  (repeat' split) <;> simp [hw]

@[simp] theorem offerHolder_offered {w₀ u : Units} (x : Ctx) (g : Group) (b : NoticeBody) (hw : Offered x w₀ u) :
    Offered x w₀ (offerHolder x g b u) := by
  unfold offerHolder
  (repeat' split) <;> simp [hw]

/-! ## Ops -/

@[simp] theorem updImage_offered {x : Ctx} {w₀ u : Units} (f : Image → Image) (hw : Offered x w₀ u) :
    Offered x w₀ (updImage u f) := ⟨hw.1⟩

@[simp] theorem writeJackValve_offered {x : Ctx} {w₀ u : Units} (j : Fin 6) (v : JackValve) (hw : Offered x w₀ u) :
    Offered x w₀ (writeJackValve j v u) := ⟨hw.1⟩

@[simp] theorem closeJackValves_offered {x : Ctx} {w₀ u : Units} (hw : Offered x w₀ u) :
    Offered x w₀ (closeJackValves u) := ⟨hw.1⟩

@[simp] theorem writeRoomValve_offered {x : Ctx} {w₀ u : Units} (n : Fin 6) (v : RoomValve) (hw : Offered x w₀ u) :
    Offered x w₀ (writeRoomValve n v u) := ⟨hw.1⟩

@[simp] theorem writeMotor_offered {x : Ctx} {w₀ u : Units} (n : Fin 6) (e : RoomEnd) (v : Motor) (hw : Offered x w₀
    u) :
    Offered x w₀ (writeMotor n e v u) := ⟨hw.1⟩

@[simp] theorem writeAwningMotor_offered {x : Ctx} {w₀ u : Units} (v : Motor) (hw : Offered x w₀ u) :
    Offered x w₀ (writeAwningMotor v u) := ⟨hw.1⟩

@[simp] theorem writePin_offered {x : Ctx} {w₀ u : Units} (n : Fin 6) (on : Bool) (hw : Offered x w₀ u) :
    Offered x w₀ (writePin n on u) := ⟨hw.1⟩

@[simp] theorem updManifold_offered {x : Ctx} {w₀ u : Units} (f : Manifold → Manifold) (hw : Offered x w₀ u) :
    Offered x w₀ (updManifold u f) := ⟨hw.1⟩

@[simp] theorem writePump_offered {w₀ u : Units} (x : Ctx) (on : Bool) (hw : Offered x w₀ u) :
    Offered x w₀ (writePump x on u) := by
  unfold writePump
  (repeat' split) <;> simp [hw]

@[simp] theorem updRoom_offered {x : Ctx} {w₀ u : Units} (n : Fin 6) (f : Room → Room) (hw : Offered x w₀ u) :
    Offered x w₀ (updRoom n f u) := ⟨hw.1⟩

@[simp] theorem updRoomMotion_offered {x : Ctx} {w₀ u : Units} (n : Fin 6) (f : RoomMotion →
    RoomMotion) (hw : Offered x w₀ u) :
    Offered x w₀ (updRoomMotion n f u) := ⟨hw.1⟩

@[simp] theorem setRoomState_offered {x : Ctx} {w₀ u : Units} (n : Fin 6) (s : RoomState) (hw : Offered x w₀ u) :
    Offered x w₀ (setRoomState n s u) := ⟨hw.1⟩

@[simp] theorem updJacks_offered {x : Ctx} {w₀ u : Units} (f : Jacks → Jacks) (hw : Offered x w₀ u) :
    Offered x w₀ (updJacks f u) := ⟨hw.1⟩

@[simp] theorem updJackMotion_offered {x : Ctx} {w₀ u : Units} (f : JackMotion → JackMotion) (hw : Offered x w₀ u) :
    Offered x w₀ (updJackMotion f u) := ⟨hw.1⟩

@[simp] theorem updAwning_offered {x : Ctx} {w₀ u : Units} (f : Awning → Awning) (hw : Offered x w₀ u) :
    Offered x w₀ (updAwning f u) := ⟨hw.1⟩

@[simp] theorem admit_offered {w₀ u : Units} (x : Ctx) (k : Consumer) (a : Nat) (hw : Offered x w₀ u) :
    Offered x w₀ (joinAdmissions x k a u) := ⟨hw.1⟩

@[simp] theorem enqueue_offered {w₀ u : Units} (x : Ctx) (k : Consumer) (a : Nat) (cause : WaitCause) (hw : Offered x
    w₀ u) :
    Offered x w₀ (enqueue x k a cause u) := ⟨hw.1⟩

@[simp] theorem budgetAsk_offered {w₀ u : Units} (x : Ctx) (k : Consumer) (hw : Offered x w₀ u) :
    Offered x w₀ (budgetAsk x k u).1 := by
  unfold budgetAsk
  (try dsimp only)
  (repeat' split) <;> first
    | exact hw
    | (simp (maxDischargeDepth := 40) [hw]; done)
    | exact ⟨hw.1⟩

@[simp] theorem budgetDrop_offered {x : Ctx} {w₀ u : Units} (ks : List Consumer) (hw : Offered x w₀ u) :
    Offered x w₀ (budgetDrop ks u).1 := ⟨hw.1⟩

@[simp] theorem setClaim_offered {x : Ctx} {w₀ u : Units} (g : Group) (c : Option Claim) (hw : Offered x w₀ u) :
    Offered x w₀ (setClaim g c u) := ⟨hw.1⟩

@[simp] theorem clearMark_offered {x : Ctx} {w₀ u : Units} (g : Group) (hw : Offered x w₀ u) :
    Offered x w₀ (clearMark g u) := ⟨hw.1⟩

@[simp] theorem claimMotionLeft_offered {x : Ctx} {w₀ u : Units} (g : Group) (hw : Offered x w₀ u) :
    Offered x w₀ (claimMotionLeft g u) := by
  unfold claimMotionLeft
  (repeat' split) <;> simp [hw]

@[simp] theorem grantGroups_offered {w₀ u : Units} (x : Ctx) (l : Link) (gs : List Group) (hw : Offered x w₀ u) :
    Offered x w₀ (grantGroups x l gs u) := by
  unfold grantGroups
  simp [hw]

@[simp] theorem absorbHeld_offered {w₀ u : Units} (x : Ctx) (l : Link) (gs : List Group) (hw : Offered x w₀ u) :
    Offered x w₀ (absorbHeld x l gs u) := by
  unfold absorbHeld
  (try dsimp only)
  (repeat' split) <;> first
    | exact hw
    | (simp (maxDischargeDepth := 40) [hw]; done)
    | exact ⟨hw.1⟩

@[simp] theorem claimForMotion_offered {w₀ u : Units} (x : Ctx) (q : Requester) (g : Group) (hw : Offered x w₀ u) :
    Offered x w₀ (claimForMotion x q g u) := by
  unfold claimForMotion
  (repeat' split) <;> simp [hw]

@[simp] theorem motionDone_offered {w₀ u : Units} (x : Ctx) (g : Group) (q : Requester) (r : Route) (res :
    MotionResult) (hw : Offered x w₀ u) :
    Offered x w₀ (motionDone x g q r res u) := by
  unfold motionDone
  simp [hw]

/-! ## Drive -/

@[simp] theorem clearSync_offered {x : Ctx} {w₀ u : Units} (n : Fin 6) (hw : Offered x w₀ u) :
    Offered x w₀ (clearSync n u) := ⟨hw.1⟩

@[simp] theorem stopDrive_offered {x : Ctx} {w₀ u : Units} (n : Fin 6) (hw : Offered x w₀ u) :
    Offered x w₀ (stopDrive n u) := ⟨hw.1⟩

@[simp] theorem holdMotor_offered {x : Ctx} {w₀ u : Units} (n : Fin 6) (e : RoomEnd) (hw : Offered x w₀ u) :
    Offered x w₀ (holdMotor n e u) := ⟨hw.1⟩

@[simp] theorem pauseDrive_offered {x : Ctx} {w₀ u : Units} (n : Fin 6) (hw : Offered x w₀ u) :
    Offered x w₀ (pauseDrive n u) := ⟨hw.1⟩

@[simp] theorem startMotor_offered {w₀ u : Units} (x : Ctx) (n : Fin 6) (e : RoomEnd) (d : MotorDir) (hw : Offered x
    w₀ u) :
    Offered x w₀ (startMotor x n e d u) := ⟨hw.1⟩

@[simp] theorem startEnd_offered {w₀ u : Units} (x : Ctx) (n : Fin 6) (m : RoomMotion) (resume : Bool) (e : RoomEnd)
    (hw : Offered x w₀ u) :
    Offered x w₀ (startEnd x n m resume u e) := by
  unfold startEnd
  simp [hw]

@[simp] theorem keepHeld_offered {x : Ctx} {w₀ u : Units} (n : Fin 6) (hw : Offered x w₀ u) :
    Offered x w₀ (keepHeld n u) := by
  unfold keepHeld
  (repeat' split) <;> simp [hw]

@[simp] theorem startDrive_offered {w₀ u : Units} (x : Ctx) (n : Fin 6) (m : RoomMotion) (hw : Offered
    x w₀
    u) :
    Offered x w₀ (startDrive x n m u) := by
  unfold startDrive
  (try dsimp only)
  (repeat' split) <;> first
    | exact hw
    | (simp (maxDischargeDepth := 40) [hw]; done)
    | exact ⟨hw.1⟩

@[simp] theorem roomReady_offered {w₀ u : Units} (x : Ctx) (n : Fin 6) (hw : Offered x w₀ u) :
    Offered x w₀ (roomReady x n u) := by
  unfold roomReady
  (try dsimp only)
  (repeat' split) <;> first
    | exact hw
    | (simp (maxDischargeDepth := 40) [hw]; done)
    | exact ⟨hw.1⟩

@[simp] theorem offerRoom_offered {w₀ u : Units} (x : Ctx) (n : Fin 6) (b : NoticeBody) (hw : Offered x w₀ u) :
    Offered x w₀ (offerRoom x n b u) := by
  unfold offerRoom
  (repeat' split) <;> simp [hw]

@[simp] theorem roomResume_offered {w₀ u : Units} (x : Ctx) (n : Fin 6) (hw : Offered x w₀ u) :
    Offered x w₀ (roomResume x n u) := by
  unfold roomResume
  (try dsimp only)
  (repeat' split) <;> first
    | exact hw
    | (simp (maxDischargeDepth := 40) [hw]; done)
    | exact ⟨hw.1⟩

@[simp] theorem enterPaused_offered {w₀ u : Units} (x : Ctx) (n : Fin 6) (reason : PauseReason) (told : Bool) (hw : Offered x w₀ u)
    :
    Offered x w₀ (enterPaused x n reason told u) := by
  have k := setRoomState_offered n .paused (updRoomMotion_offered n
      (fun m => { m with step := .pause, lostPin := m.lostPin || m.step == .pinWait }) (pauseDrive_offered n hw))
  unfold enterPaused
  exact offered_ite (offerRoom_offered x n _ k) k

@[simp] theorem driveJacks_offered {x : Ctx} {w₀ u : Units} (v : JackValve) (pick : Fin 6 →
    Bool) (hw : Offered x w₀ u) :
    Offered x w₀ (driveJacks v pick u) := ⟨hw.1⟩

@[simp] theorem setJackStep_offered {x : Ctx} {w₀ u : Units} (st : JackStep) (s : JackSetState) (d : Option
    CoachTime) (hw :
    Offered x w₀ u) :
    Offered x w₀ (setJackStep st s d u) := ⟨hw.1⟩

@[simp] theorem clearLift_offered {x : Ctx} {w₀ u : Units} (hw : Offered x w₀ u) :
    Offered x w₀ (clearLift u) := ⟨hw.1⟩

@[simp] theorem beginSeek_offered {w₀ u : Units} (x : Ctx) (hw : Offered x w₀ u) :
    Offered x w₀ (beginSeek x u) := ⟨hw.1⟩

@[simp] theorem beginReseek_offered {w₀ u : Units} (x : Ctx) (hw : Offered x w₀ u) :
    Offered x w₀ (beginReseek x u) := ⟨hw.1⟩

@[simp] theorem beginSettle_offered {w₀ u : Units} (x : Ctx) (hw : Offered x w₀ u) :
    Offered x w₀ (beginSettle x u) := ⟨hw.1⟩

@[simp] theorem beginJog_offered {w₀ u : Units} (x : Ctx) (m : JackMotion) (hw : Offered x w₀ u) :
    Offered x w₀ (beginJog x m u) := ⟨hw.1⟩

@[simp] theorem beginRetract_offered {w₀ u : Units} (x : Ctx) (hw : Offered x w₀ u) :
    Offered x w₀ (beginRetract x u) := ⟨hw.1⟩

@[simp] theorem offerJacks_offered {w₀ u : Units} (x : Ctx) (b : NoticeBody) (hw : Offered x w₀ u) :
    Offered x w₀ (offerJacks x b u) := by
  unfold offerJacks
  (repeat' split) <;> simp [hw]

@[simp] theorem jackTurnOpen_offered {w₀ u : Units} (x : Ctx) (hw : Offered x w₀ u) :
    Offered x w₀ (jackTurnOpen x u) := by
  unfold jackTurnOpen
  (repeat' split) <;> simp [hw]

@[simp] theorem jackPause_offered {w₀ u : Units} (x : Ctx) (reason : PauseReason) (hw : Offered x w₀ u) :
    Offered x w₀ (jackPause x reason u) := by
  unfold jackPause
  (try dsimp only)
  (repeat' split) <;> first
    | exact hw
    | (simp (maxDischargeDepth := 40) [hw]; done)
    | exact ⟨hw.1⟩

@[simp] theorem roomTurnOpen_offered {w₀ u : Units} (x : Ctx) (n : Fin 6) (hw : Offered x w₀ u) :
    Offered x w₀ (roomTurnOpen x n u) := by
  unfold roomTurnOpen
  (repeat' split) <;> simp [hw]

@[simp] theorem turnOpen_offered {w₀ u : Units} (x : Ctx) (k : ManifoldUser) (hw : Offered x w₀ u) :
    Offered x w₀ (turnOpen x k u) := by
  unfold turnOpen
  (repeat' split) <;> simp [hw]

@[simp] theorem runTurn_offered {w₀ u : Units} (x : Ctx) (hw : Offered x w₀ u) :
    Offered x w₀ (runTurn x u) := by
  unfold runTurn
  (try dsimp only)
  (repeat' split) <;> first
    | exact hw
    | (simp (maxDischargeDepth := 40) [hw]; done)
    | exact ⟨hw.1⟩

@[simp] theorem askPump_offered {w₀ u : Units} (x : Ctx) (hw : Offered x w₀ u) :
    Offered x w₀ (askPump x u) := by
  unfold askPump
  (try dsimp only)
  (repeat' split) <;> first
    | exact hw
    | (simp (maxDischargeDepth := 40) [hw]; done)
    | exact ⟨hw.1⟩

@[simp] theorem beginTurn_offered {w₀ u : Units} (x : Ctx) (k : ManifoldUser) (hw : Offered x w₀ u) :
    Offered x w₀ (beginTurn x k u) := by
  unfold beginTurn
  (try dsimp only)
  (repeat' split) <;> first
    | exact hw
    | (simp (maxDischargeDepth := 40) [hw]; done)
    | exact ⟨hw.1⟩

@[simp] theorem askTurn_offered {w₀ u : Units} (x : Ctx) (k : ManifoldUser) (hw : Offered x w₀ u) :
    Offered x w₀ (askTurn x k u) := by
  unfold askTurn
  (repeat' split) <;> simp [hw]

@[simp] theorem nextTurn_offered {w₀ u : Units} (x : Ctx) (hw : Offered x w₀ u) :
    Offered x w₀ (nextTurn x u) := by
  unfold nextTurn
  (repeat' split) <;> simp [hw]

@[simp] theorem setAwningStep_offered {x : Ctx} {w₀ u : Units} (st : AwningStep) (d : Option CoachTime) (hw : Offered
    x w₀ u) :
    Offered x w₀ (setAwningStep st d u) := ⟨hw.1⟩

@[simp] theorem startAwning_offered {w₀ u : Units} (x : Ctx) (hw : Offered x w₀ u) :
    Offered x w₀ (startAwning x u) := by
  unfold startAwning
  (try dsimp only)
  (repeat' split) <;> first
    | exact hw
    | (simp (maxDischargeDepth := 40) [hw]; done)
    | exact ⟨hw.1⟩

@[simp] theorem offerAwning_offered {w₀ u : Units} (x : Ctx) (b : NoticeBody) (hw : Offered x w₀ u) :
    Offered x w₀ (offerAwning x b u) := by
  unfold offerAwning
  (repeat' split) <;> simp [hw]

@[simp] theorem pinGranted_offered {w₀ u : Units} (x : Ctx) (n : Fin 6) (hw : Offered x w₀ u) :
    Offered x w₀ (pinGranted x n u) := by
  unfold pinGranted
  (try dsimp only)
  (repeat' split) <;> first
    | exact hw
    | (simp (maxDischargeDepth := 40) [hw]; done)
    | exact ⟨hw.1⟩

@[simp] theorem driveGranted_offered {w₀ u : Units} (x : Ctx) (n : Fin 6) (hw : Offered x w₀ u) :
    Offered x w₀ (driveGranted x n u) := by
  unfold driveGranted
  (repeat' split) <;> simp [hw]

@[simp] theorem awningGranted_offered {w₀ u : Units} (x : Ctx) (shed : Bool) (hw : Offered x w₀ u) :
    Offered x w₀ (awningGranted x shed u) := by
  unfold awningGranted
  (try dsimp only)
  (repeat' split) <;> first
    | exact hw
    | (simp (maxDischargeDepth := 40) [hw]; done)
    | exact ⟨hw.1⟩

@[simp] theorem granted_offered {w₀ u : Units} (x : Ctx) (w : BudgetWait) (hw : Offered x w₀ u) :
    Offered x w₀ (granted x w u) := by
  unfold granted
  (repeat' split) <;> simp [hw]

@[simp] theorem admitQueued_offered {w₀ u : Units} (x : Ctx) (w : BudgetWait) (hw : Offered x w₀ u) :
    Offered x w₀ (admitQueued x w u) := by
  unfold admitQueued
  (try dsimp only)
  (repeat' split) <;> first
    | exact hw
    | (simp (maxDischargeDepth := 40) [hw]; done)
    | exact ⟨hw.1⟩

@[simp] theorem passHeads_offered {w : Units} (x : Ctx) : ∀ (fuel : Nat) {u : Units}, Offered x w u →
    Offered x w (passHeads x
    fuel u)
  | 0, _, h => h
  | fuel + 1, u, h => by
    unfold passHeads
    repeat' split
    · exact h
    · exact passHeads_offered x fuel (admitQueued_offered _ _ h)
    · exact h

@[simp] theorem passAwning_offered {w₀ u : Units} (x : Ctx) (hw : Offered x w₀ u) :
    Offered x w₀ (passAwning x u) := by
  unfold passAwning
  (repeat' split) <;> simp [hw]

@[simp] theorem admissionPass_offered {w₀ u : Units} (x : Ctx) (hw : Offered x w₀ u) :
    Offered x w₀ (admissionPass x u) := by
  unfold admissionPass
  (repeat' split) <;> simp [hw]

@[simp] theorem giveUp_offered {w₀ u : Units} (x : Ctx) (ks : List Consumer) (hw : Offered x w₀ u) :
    Offered x w₀ (giveUp x ks u) := by
  unfold giveUp
  (try dsimp only)
  (repeat' split) <;> first
    | exact hw
    | (simp (maxDischargeDepth := 40) [hw]; done)
    | exact ⟨hw.1⟩

@[simp] theorem turnEnd_offered {w₀ u : Units} (x : Ctx) (hw : Offered x w₀ u) :
    Offered x w₀ (turnEnd x u) := by
  unfold turnEnd
  (try dsimp only)
  (repeat' split) <;> first
    | exact hw
    | (simp (maxDischargeDepth := 40) [hw]; done)
    | exact ⟨hw.1⟩

@[simp] theorem leaveManifold_offered {w₀ u : Units} (x : Ctx) (k : ManifoldUser) (hw : Offered x w₀ u) :
    Offered x w₀ (leaveManifold x k u) := by
  unfold leaveManifold
  simp [hw]

@[simp] theorem shedEffect_offered {w₀ u : Units} (x : Ctx) (k : Consumer) (told : Bool) (hw : Offered x w₀ u) :
    Offered x w₀ (shedEffect x k told u) := by
  unfold shedEffect
  (try dsimp only)
  (repeat' split) <;> first
    | exact hw
    | (simp (maxDischargeDepth := 40) [hw]; done)
    | exact ⟨hw.1⟩

@[simp] theorem shed_offered {w₀ u : Units} (x : Ctx) (a : Admission) (cause : WaitCause) (told : List Group) (hw : Offered x w₀ u) :
    Offered x w₀ (shed x a cause told u) := by
  unfold shed
  (try dsimp only)
  (repeat' split) <;> first
    | exact hw
    | (simp (maxDischargeDepth := 40) [hw]; done)
    | exact ⟨hw.1⟩

@[simp] theorem shedToBound_offered {w : Units} (x : Ctx) : ∀ (fuel : Nat) (told : List Group) {u : Units},
    Offered x w u → Offered x w (shedToBound x fuel told u)
  | 0, _, _, h => h
  | fuel + 1, _, u, h => by
    unfold shedToBound
    repeat' split
    · exact h
    · exact shedToBound_offered x fuel _ (shed_offered _ _ _ _ h)
    · exact h

@[simp] theorem shedToLimit_offered {w₀ u : Units} (x : Ctx) (hw : Offered x w₀ u) :
    Offered x w₀ (shedToLimit x u) := by
  unfold shedToLimit
  (try dsimp only)
  (repeat' split) <;> first
    | exact hw
    | (simp (maxDischargeDepth := 40) [hw]; done)
    | exact ⟨hw.1⟩

@[simp] theorem applyLimit_offered {w₀ u : Units} (x : Ctx) (hw : Offered x w₀ u) :
    Offered x w₀ (applyLimit x u) := by
  unfold applyLimit
  (repeat' split) <;> simp [hw]

@[simp] theorem driveRequest_offered {w₀ u : Units} (x : Ctx) (n : Fin 6) (hw : Offered x w₀ u) :
    Offered x w₀ (driveRequest x n u) := by
  unfold driveRequest
  (try dsimp only)
  (repeat' split) <;> first
    | exact hw
    | (simp (maxDischargeDepth := 40) [hw]; done)
    | exact ⟨hw.1⟩

@[simp] theorem pinWithdraw_offered {w₀ u : Units} (x : Ctx) (n : Fin 6) (hw : Offered x w₀ u) :
    Offered x w₀ (pinWithdraw x n u) := by
  unfold pinWithdraw
  (try dsimp only)
  (repeat' split) <;> first
    | exact hw
    | (simp (maxDischargeDepth := 40) [hw]; done)
    | exact ⟨hw.1⟩

@[simp] theorem pinEngage_offered {w₀ u : Units} (x : Ctx) (n : Fin 6) (pending : Option MotionResult) (hw : Offered
    x w₀ u) :
    Offered x w₀ (pinEngage x n pending u) := ⟨hw.1⟩

@[simp] theorem beginSequence_offered {w₀ u : Units} (x : Ctx) (n : Fin 6) (d : Direction) (hw : Offered x w₀ u) :
    Offered x w₀ (beginSequence x n d u) := by
  unfold beginSequence
  (repeat' split) <;> simp [hw]

@[simp] theorem pinWithdrawn_offered {w₀ u : Units} (x : Ctx) (n : Fin 6) (hw : Offered x w₀ u) :
    Offered x w₀ (pinWithdrawn x n u) := by
  unfold pinWithdrawn
  (repeat' split) <;> simp [hw]

/-! ## MotionEnd -/

@[simp] theorem dropRoomMotion_offered {x : Ctx} {w₀ u : Units} (n : Fin 6) (hw : Offered x w₀ u) :
    Offered x w₀ (dropRoomMotion n u) := ⟨hw.1⟩

@[simp] theorem roomOutputsOff_offered {x : Ctx} {w₀ u : Units} (n : Fin 6) (hw : Offered x w₀ u) :
    Offered x w₀ (roomOutputsOff n u) := ⟨hw.1⟩

@[simp] theorem roomRelease_offered {w₀ u : Units} (x : Ctx) (n : Fin 6) (hw : Offered x w₀ u) :
    Offered x w₀ (roomRelease x n u) := by
  unfold roomRelease
  simp [hw]

@[simp] theorem endRoom_offered {w₀ u : Units} (x : Ctx) (n : Fin 6) (res : MotionResult) (st : RoomState) (hw :
    Offered x
    w₀ u) :
    Offered x w₀ (endRoom x n res st u) := by
  unfold endRoom
  (try dsimp only)
  (repeat' split) <;> first
    | exact hw
    | (simp (maxDischargeDepth := 40) [hw]; done)
    | exact ⟨hw.1⟩

@[simp] theorem roomStopProcedure_offered {w₀ u : Units} (x : Ctx) (n : Fin 6) (res : MotionResult) (hw : Offered x
    w₀ u) :
    Offered x w₀ (roomStopProcedure x n res u) := by
  unfold roomStopProcedure
  (try dsimp only)
  (repeat' split) <;> first
    | exact hw
    | (simp (maxDischargeDepth := 40) [hw]; done)
    | exact ⟨hw.1⟩

@[simp] theorem dropJackMotion_offered {x : Ctx} {w₀ u : Units} (st : JackSetState) (hw : Offered x w₀ u) :
    Offered x w₀ (dropJackMotion st u) := ⟨hw.1⟩

@[simp] theorem endJacks_offered {w₀ u : Units} (x : Ctx) (res : MotionResult) (st : JackSetState) (hw : Offered x w₀
    u) :
    Offered x w₀ (endJacks x res st u) := by
  unfold endJacks
  (try dsimp only)
  (repeat' split) <;> first
    | exact hw
    | (simp (maxDischargeDepth := 40) [hw]; done)
    | exact ⟨hw.1⟩

@[simp] theorem endAwning_offered {w₀ u : Units} (x : Ctx) (res : MotionResult) (st : AwningState) (hw : Offered x w₀
    u) :
    Offered x w₀ (endAwning x res st u) := by
  unfold endAwning
  (try dsimp only)
  (repeat' split) <;> first
    | exact hw
    | (simp (maxDischargeDepth := 40) [hw]; done)
    | exact ⟨hw.1⟩

@[simp] theorem endRetract_offered {w₀ u : Units} (x : Ctx) (completed : Bool) (st : AwningState) (hw : Offered x w₀
    u) :
    Offered x w₀ (endRetract x completed st u) := by
  unfold endRetract
  (try dsimp only)
  (repeat' split) <;> first
    | exact hw
    | (simp (maxDischargeDepth := 40) [hw]; done)
    | exact ⟨hw.1⟩

@[simp] theorem stopMotion_offered {w₀ u : Units} (x : Ctx) (g : Group) (res : MotionResult) (hw : Offered x w₀ u) :
    Offered x w₀ (stopMotion x g res u) := by
  unfold stopMotion
  (repeat' split) <;> simp [hw]

@[simp] theorem abortMotion_offered {w₀ u : Units} (x : Ctx) (res : MotionResult) (g : Group) (hw : Offered x w₀ u) :
    Offered x w₀ (abortMotion x res u g) := by
  unfold abortMotion
  (repeat' split) <;> simp [hw]

@[simp] theorem detach_offered {x : Ctx} {w₀ u : Units} (gs : List Group) (hw : Offered x w₀ u) :
    Offered x w₀ (detach gs u).1 := ⟨hw.1⟩

@[simp] theorem endAll_offered {w u : Units} (x : Ctx) (gs : List Group) (f : Units → Group → Units)
    (hf : ∀ v g, Offered x v (f v g)) (h : Offered x w u) : Offered x w (endAll x gs f u) := by
  unfold endAll
  dsimp only
  split <;> simp (maxDischargeDepth := 30) [h, hf]

@[simp] theorem abortAll_offered {w₀ u : Units} (x : Ctx) (res : MotionResult) (hw : Offered x w₀ u) :
    Offered x w₀ (abortAll x res u) := by
  unfold abortAll
  simp [hw]

/-! ## Halts -/

@[simp] theorem haltGroup_offered {w₀ u : Units} (x : Ctx) (g : Group) (hw : Offered x w₀ u) :
    Offered x w₀ (haltGroup x g u) := by
  unfold haltGroup
  (try dsimp only)
  (repeat' split) <;> first
    | exact hw
    | (simp (maxDischargeDepth := 40) [hw]; done)
    | exact ⟨hw.1⟩

@[simp] theorem haltB_offered {w₀ u : Units} (x : Ctx) (g : Group) (k : FaultCode) (d : Detail) (hw : Offered x w₀ u)
    :
    Offered x w₀ (haltB x g k d u) := by
  unfold haltB
  (repeat' split) <;> simp [hw]

@[simp] theorem settleGroups_offered {w₀ u : Units} (x : Ctx) (hw : Offered x w₀ u) :
    Offered x w₀ (settleGroups x u) := by
  unfold settleGroups
  (try dsimp only)
  (repeat' split) <;> first
    | exact hw
    | (simp (maxDischargeDepth := 40) [hw]; done)
    | exact ⟨hw.1⟩

@[simp] theorem leaveFault_offered {w₀ u : Units} (x : Ctx) (g : Group) (hw : Offered x w₀ u) :
    Offered x w₀ (leaveFault x g u) := by
  unfold leaveFault
  (repeat' split) <;> simp [hw]

/-! ## Claims -/

@[simp] theorem setPending_offered {x : Ctx} {w₀ u : Units} (n : Fin 6) (res : Option MotionResult) (hw : Offered x
    w₀ u) :
    Offered x w₀ (setPending n res u) := ⟨hw.1⟩

@[simp] theorem stopForLink_offered {w₀ u : Units} (x : Ctx) (res : MotionResult) (g : Group) (hw : Offered x w₀ u) :
    Offered x w₀ (stopForLink x res g u) := by
  unfold stopForLink
  (repeat' split) <;> simp [hw]

@[simp] theorem setMark_offered {x : Ctx} {w₀ u : Units} (g : Group) (hw : Offered x w₀ u) :
    Offered x w₀ (setMark g u) := ⟨hw.1⟩

@[simp] theorem releaseGroup_offered {w₀ u : Units} (x : Ctx) (l : Link) (res : MotionResult) (g : Group) (hw :
    Offered x
    w₀ u) :
    Offered x w₀ (releaseGroup x l res u g) := by
  unfold releaseGroup
  (try dsimp only)
  (repeat' split) <;> first
    | exact hw
    | (simp (maxDischargeDepth := 40) [hw]; done)
    | exact ⟨hw.1⟩

@[simp] theorem releaseAll_offered {w₀ u : Units} (x : Ctx) (l : Link) (res : MotionResult) (gs : List Group) (hw :
    Offered x w₀ u) :
    Offered x w₀ (releaseAll x l res gs u) := by
  unfold releaseAll
  (try dsimp only)
  (repeat' split) <;> first
    | exact hw
    | (simp (maxDischargeDepth := 40) [hw]; done)
    | exact ⟨hw.1⟩

@[simp] theorem grantEntry_offered {w₀ u : Units} (x : Ctx) (i : Nat) (e : WaitEntry) (hw : Offered x w₀ u) :
    Offered x w₀ (grantEntry x i e u) := by
  unfold grantEntry
  (try dsimp only)
  (repeat' split) <;> first
    | exact hw
    | (simp (maxDischargeDepth := 40) [hw]; done)
    | exact ⟨hw.1⟩

@[simp] theorem walkFrom_offered {w : Units} (x : Ctx) : ∀ (fuel i : Nat) {u : Units}, Offered x w u →
    Offered x w (walkFrom x
    fuel i u)
  | 0, _, _, h => h
  | fuel + 1, i, u, h => by
    unfold walkFrom
    repeat' split
    · exact h
    · exact walkFrom_offered x fuel _ (grantEntry_offered _ _ _ h)
    · exact walkFrom_offered x fuel _ h

@[simp] theorem grantWalk_offered {w₀ u : Units} (x : Ctx) (hw : Offered x w₀ u) :
    Offered x w₀ (grantWalk x u) := by
  unfold grantWalk
  simp [hw]

@[simp] theorem offerLost_offered {w₀ u : Units} (x : Ctx) (e : WaitEntry) (u0 : Units) (k : Link) (hw : Offered x w₀
    u) :
    Offered x w₀ (offerLost x e u0 u k) := by
  unfold offerLost
  simp [hw]

@[simp] theorem testPreemption_offered {w₀ u : Units} (x : Ctx) (i : Nat) (e : WaitEntry) (hw : Offered x w₀ u) :
    Offered x w₀ (testPreemption x i e u) := by
  unfold testPreemption
  (try dsimp only)
  (repeat' split) <;> first
    | exact hw
    | (simp (maxDischargeDepth := 40) [hw]; done)
    | exact ⟨hw.1⟩

@[simp] theorem testsFrom_offered {w : Units} (x : Ctx) (fresh : List Group) :
    ∀ (fuel i : Nat) {u : Units}, Offered x w u → Offered x w (testsFrom x fresh fuel i u)
  | 0, _, _, h => h
  | fuel + 1, i, u, h => by
    unfold testsFrom
    repeat' split
    · exact h
    · exact testsFrom_offered x fresh fuel _ (testPreemption_offered _ _ _ h)
    · exact testsFrom_offered x fresh fuel _ h

@[simp] theorem settleClaims_offered {w₀ u : Units} (x : Ctx) (u0 : Units) (hw : Offered x w₀ u) :
    Offered x w₀ (settleClaims x u0 u) := by
  unfold settleClaims
  (try dsimp only)
  (repeat' split) <;> first
    | exact hw
    | (simp (maxDischargeDepth := 40) [hw]; done)
    | exact ⟨hw.1⟩

@[simp] theorem emptyWaitList_offered {w₀ u : Units} (x : Ctx) (hw : Offered x w₀ u) :
    Offered x w₀ (emptyWaitList x u) := by
  unfold emptyWaitList
  simp [hw]

/-! ## RoomRequests -/

@[simp] theorem startRoom_offered {w₀ u : Units} (x : Ctx) (n : Fin 6) (a : Asker) (d : Direction) (mode : Mode)
    (target : Option Int) (hw : Offered x w₀ u) :
    Offered x w₀ (startRoom x n a d mode target u) := by
  unfold startRoom
  (try dsimp only)
  (repeat' split) <;> first
    | exact hw
    | (simp (maxDischargeDepth := 40) [hw]; done)
    | exact ⟨hw.1⟩

@[simp] theorem updateRoom_offered {w₀ u : Units} (x : Ctx) (n : Fin 6) (a : Asker) (d : Direction) (mode : Mode)
    (target : Option Int) (hw : Offered x w₀ u) :
    Offered x w₀ (updateRoom x n a d mode target u) := ⟨hw.1⟩

@[simp] theorem giveUpPin_offered {w₀ u : Units} (x : Ctx) (n : Fin 6) (hw : Offered x w₀ u) :
    Offered x w₀ (giveUpPin x n u) := by
  unfold giveUpPin
  (try dsimp only)
  (repeat' split) <;> first
    | exact hw
    | (simp (maxDischargeDepth := 40) [hw]; done)
    | exact ⟨hw.1⟩

@[simp] theorem reverseStep_offered {w₀ u : Units} (x : Ctx) (n : Fin 6) (d : Direction) (st : RoomStep) (hw :
    Offered x w₀
    u) :
    Offered x w₀ (reverseStep x n d st u) := by
  unfold reverseStep
  (try dsimp only)
  (repeat' split) <;> first
    | exact hw
    | (simp (maxDischargeDepth := 40) [hw]; done)
    | exact ⟨hw.1⟩

@[simp] theorem reverseRoom_offered {w₀ u : Units} (x : Ctx) (n : Fin 6) (a : Asker) (d : Direction) (mode : Mode)
    (target : Option Int) (m : RoomMotion) (hw : Offered x w₀ u) :
    Offered x w₀ (reverseRoom x n a d mode target m u) := by
  unfold reverseRoom
  (try dsimp only)
  (repeat' split) <;> first
    | exact hw
    | (simp (maxDischargeDepth := 40) [hw]; done)
    | exact ⟨hw.1⟩

@[simp] theorem handleRoomMove_offered {w₀ u : Units} (x : Ctx) (n : Fin 6) (a : Asker) (d : Direction) (mode : Mode)
    (target : Option Int) (hw : Offered x w₀ u) :
    Offered x w₀ (handleRoomMove x n a d mode target u).1 := by
  unfold handleRoomMove
  (repeat' split) <;> simp [hw]

@[simp] theorem roomMove_offered {w₀ u : Units} (x : Ctx) (a : Asker) (g : Group) (d : Direction) (mode : Mode)
    (target : Option Int) (gen : Option Generation) (hw : Offered x w₀ u) :
    Offered x w₀ (roomMove x a g d mode target gen u).1 := by
  unfold roomMove
  (repeat' split) <;> simp [hw]

@[simp] theorem roomStop_offered {w₀ u : Units} (x : Ctx) (g : Group) (hw : Offered x w₀ u) :
    Offered x w₀ (roomStop x g u).1 := by
  unfold roomStop
  (repeat' split) <;> simp [hw]

/-! ## JackRequests -/

@[simp] theorem startJacks_offered {w₀ u : Units} (x : Ctx) (a : Asker) (k : JackAsk) (hw : Offered x w₀ u) :
    Offered x w₀ (startJacks x a k u) := by
  unfold startJacks
  (try dsimp only)
  (repeat' split) <;> first
    | exact hw
    | (simp (maxDischargeDepth := 40) [hw]; done)
    | exact ⟨hw.1⟩

@[simp] theorem updateJacks_offered {w₀ u : Units} (x : Ctx) (a : Asker) (k : JackAsk) (m : JackMotion) (hw : Offered
    x w₀
    u) :
    Offered x w₀ (updateJacks x a k m u) := by
  unfold updateJacks
  (try dsimp only)
  (repeat' split) <;> first
    | exact hw
    | (simp (maxDischargeDepth := 40) [hw]; done)
    | exact ⟨hw.1⟩

@[simp] theorem jackRequest_offered {w₀ u : Units} (x : Ctx) (a : Asker) (k : JackAsk) (gen : Option Generation) (hw :
    Offered x w₀ u) :
    Offered x w₀ (jackRequest x a k gen u).1 := by
  unfold jackRequest
  (repeat' split) <;> simp [hw]

@[simp] theorem jackStop_offered {w₀ u : Units} (x : Ctx) (hw : Offered x w₀ u) :
    Offered x w₀ (jackStop x u).1 := by
  unfold jackStop
  (repeat' split) <;> simp [hw]

/-! ## AwningRequests -/

@[simp] theorem startOwner_offered {w₀ u : Units} (x : Ctx) (a : Asker) (d : Direction) (mode : Mode) (percent :
    Option Nat) (hw : Offered x w₀ u) :
    Offered x w₀ (startOwner x a d mode percent u) := by
  unfold startOwner
  (try dsimp only)
  (repeat' split) <;> first
    | exact hw
    | (simp (maxDischargeDepth := 40) [hw]; done)
    | exact ⟨hw.1⟩

@[simp] theorem reverseOwnerStep_offered {w₀ u : Units} (x : Ctx) (st : AwningStep) (hw : Offered x w₀ u) :
    Offered x w₀ (reverseOwnerStep x st u) := by
  unfold reverseOwnerStep
  (repeat' split) <;> simp [hw]

@[simp] theorem handleAwningMove_offered {w₀ u : Units} (x : Ctx) (a : Asker) (d : Direction) (mode : Mode) (percent :
    Option Nat) (hw : Offered x w₀ u) :
    Offered x w₀ (handleAwningMove x a d mode percent u).1 := by
  unfold handleAwningMove
  (try dsimp only)
  (repeat' split) <;> first
    | exact hw
    | (simp (maxDischargeDepth := 40) [hw]; done)
    | exact ⟨hw.1⟩

@[simp] theorem awningMove_offered {w₀ u : Units} (x : Ctx) (a : Asker) (d : Direction) (mode : Mode) (percent :
    Option Nat) (gen : Option Generation) (hw : Offered x w₀ u) :
    Offered x w₀ (awningMove x a d mode percent gen u).1 := by
  unfold awningMove
  (repeat' split) <;> simp [hw]

@[simp] theorem awningStop_offered {w₀ u : Units} (x : Ctx) (hw : Offered x w₀ u) :
    Offered x w₀ (awningStop x u).1 := by
  unfold awningStop
  (repeat' split) <;> simp [hw]

/-! ## LineMap -/

@[simp] theorem deliverAction_offered {w₀ u : Units} (x : Ctx) (a : Asker) (mode : Mode) (k : MapAction) (hw :
    Offered x w₀
    u) :
    Offered x w₀ (deliverAction x a mode k u).1 := by
  unfold deliverAction
  (repeat' split) <;> simp [hw]

@[simp] theorem deliver_offered {w₀ u : Units} (x : Ctx) (l : Line) (e : MapEntry) (hw : Offered x w₀ u) :
    Offered x w₀ (deliver x l e u) := by
  unfold deliver
  (try dsimp only)
  (repeat' split) <;> first
    | exact hw
    | (simp (maxDischargeDepth := 40) [hw]; done)
    | exact ⟨hw.1⟩

@[simp] theorem setPendingMark_offered {x : Ctx} {w₀ u : Units} (l : Line) (b : Bool) (hw : Offered x w₀ u) :
    Offered x w₀ (setPendingMark l b u) := ⟨hw.1⟩

@[simp] theorem lineReleased_offered {w₀ u : Units} (x : Ctx) (g : Group) (l : Line) (hw : Offered x w₀ u) :
    Offered x w₀ (lineReleased x g l u) := by
  unfold lineReleased
  simp [hw]

/-! ## ClaimRequests -/

@[simp] theorem convertClaim_offered {w₀ u : Units} (x : Ctx) (g : Group) (hw : Offered x w₀ u) :
    Offered x w₀ (convertClaim x u g) := ⟨hw.1⟩

@[simp] theorem effectClaim_offered {w₀ u : Units} (x : Ctx) (l : Link) (tag : Byte) (gs : List Group) (rest : List
    Group) (hw : Offered x w₀ u) :
    Offered x w₀ (effectClaim x l tag gs rest u).1 := by
  unfold effectClaim
  (try dsimp only)
  (repeat' split) <;> first
    | exact hw
    | (simp (maxDischargeDepth := 40) [hw]; done)
    | exact ⟨hw.1⟩

@[simp] theorem claimRequest_offered {w₀ u : Units} (x : Ctx) (l : Link) (tag : Byte) (gs : List Group) (wait : Bool)
    (gen : Option Generation) (hw : Offered x w₀ u) :
    Offered x w₀ (claimRequest x l tag gs wait gen u).1 := by
  unfold claimRequest
  (try dsimp only)
  (repeat' split) <;> first
    | exact hw
    | (simp (maxDischargeDepth := 40) [hw]; done)
    | exact ⟨hw.1⟩

@[simp] theorem releaseRequest_offered {w₀ u : Units} (x : Ctx) (l : Link) (gs : List Group) (hw : Offered x w₀ u) :
    Offered x w₀ (releaseRequest x l gs u).1 := by
  unfold releaseRequest
  (try dsimp only)
  (repeat' split) <;> first
    | exact hw
    | (simp (maxDischargeDepth := 40) [hw]; done)
    | exact ⟨hw.1⟩

@[simp] theorem stopAll_offered {w₀ u : Units} (x : Ctx) (hw : Offered x w₀ u) :
    Offered x w₀ (stopAll x u).1 := by
  unfold stopAll
  (repeat' split) <;> simp [hw]

@[simp] theorem setHold_offered {x : Ctx} {w₀ u : Units} (g : Group) (h : HoldSource) (hw : Offered x w₀ u) :
    Offered x w₀ (setHold g h u) := by
  unfold setHold
  (repeat' split) <;> simp [hw]

@[simp] theorem holdRefresh_offered {w₀ u : Units} (x : Ctx) (l : Link) (g : Group) (hw : Offered x w₀ u) :
    Offered x w₀ (holdRefresh x l g u).1 := by
  unfold holdRefresh
  (repeat' split) <;> simp [hw]

/-! ## SetupRequests -/

@[simp] theorem commitGroups_offered {w₀ u : Units} (x : Ctx) (hw : Offered x w₀ u) :
    Offered x w₀ (commitGroups x u) := ⟨hw.1⟩

/-! ## Settle -/

@[simp] theorem endDriveStep_offered {w₀ u : Units} (x : Ctx) (n : Fin 6) (m : RoomMotion) (hw : Offered x w₀ u) :
    Offered x w₀ (endDriveStep x n m u) := by
  unfold endDriveStep
  (try dsimp only)
  (repeat' split) <;> first
    | exact hw
    | (simp (maxDischargeDepth := 40) [hw]; done)
    | exact ⟨hw.1⟩

@[simp] theorem closeAtLimit_offered {w₀ u : Units} (x : Ctx) (hw : Offered x w₀ u) :
    Offered x w₀ (closeAtLimit x u) := ⟨hw.1⟩

theorem roomDue_offered {x : Ctx} {n : Fin 6} {u v : Units} (h : roomDue x n u = some v) : Offered x u v := by
  unfold roomDue at h
  repeat' split at h
  all_goals first
    | contradiction
    | (cases h; exact endRoom_offered _ _ _ _ (.refl _ _))
    | (cases h; exact pinWithdrawn_offered _ _ (.refl _ _))
    | (cases h; exact endDriveStep_offered _ _ _ (.refl _ _))

theorem ifChanged_offered {x : Ctx} {u v w : Units} (hv : Offered x u v) (h : ifChanged u v = some w) :
    Offered x u w := by
  unfold ifChanged at h
  split at h
  · contradiction
  · cases h; exact hv

theorem jacksDue_offered {x : Ctx} {u v : Units} (h : jacksDue x u = some v) : Offered x u v := by
  unfold jacksDue at h
  repeat' split at h
  all_goals first
    | contradiction
    | exact ifChanged_offered (updImage_offered _ (.refl _ _)) h
    | exact ifChanged_offered (closeAtLimit_offered _ (.refl _ _)) h
    | (cases h; exact beginSettle_offered _ (.refl _ _))
    | (cases h; exact endJacks_offered _ _ _ (.refl _ _))
    | (cases h; exact beginReseek_offered _ (updJackMotion_offered _ (.refl _ _)))

theorem awningDue_offered {x : Ctx} {u v : Units} (h : awningDue x u = some v) : Offered x u v := by
  unfold awningDue at h
  repeat' split at h
  all_goals first
    | contradiction
    | (cases h; exact endRetract_offered _ _ _ (.refl _ _))
    | (cases h; exact endAwning_offered _ _ _ (.refl _ _))

theorem stepDue_offered {x : Ctx} {u v : Units} (h : stepDue x u = some v) : Offered x u v := by
  unfold stepDue at h
  split at h
  · next k =>
    cases h
    obtain ⟨n, _, hn⟩ := List.exists_of_findSome?_eq_some k
    exact roomDue_offered hn
  split at h
  · next k => cases h; exact jacksDue_offered k
  · exact awningDue_offered h

@[simp] theorem settleSteps_offered {w : Units} (x : Ctx) : ∀ (fuel : Nat) {u : Units}, Offered x w u →
    Offered x w (settleSteps
    x fuel u)
  | 0, _, h => h
  | fuel + 1, u, h => by
    unfold settleSteps
    split
    · next k => exact settleSteps_offered x fuel (h.trans (stepDue_offered k))
    · exact h

@[simp] theorem permitFall_offered {w₀ u : Units} (x : Ctx) (hw : Offered x w₀ u) :
    Offered x w₀ (permitFall x u) := by
  unfold permitFall
  (try dsimp only)
  (repeat' split) <;> first
    | exact hw
    | (simp (maxDischargeDepth := 40) [hw]; done)
    | exact ⟨hw.1⟩

@[simp] theorem stopRetract_offered {w₀ u : Units} (x : Ctx) (u0 : Units) (hw : Offered x w₀ u) :
    Offered x w₀ (stopRetract x u0 u) := by
  unfold stopRetract
  simp [hw]

@[simp] theorem followAwning_offered {w₀ u : Units} (x0 : Ctx) (u0 : Units) (x : Ctx) (hw : Offered x w₀ u) :
    Offered x w₀ (followAwning x0 u0 x u) := by
  unfold followAwning
  simp [hw]

@[simp] theorem clearMarks_offered {w₀ u : Units} (x : Ctx) (hw : Offered x w₀ u) :
    Offered x w₀ (clearMarks x u) := by
  unfold clearMarks
  (try dsimp only)
  (repeat' split) <;> first
    | exact hw
    | (simp (maxDischargeDepth := 40) [hw]; done)
    | exact ⟨hw.1⟩

@[simp] theorem overtakeOwner_offered {w₀ u : Units} (x : Ctx) (hw : Offered x w₀ u) :
    Offered x w₀ (overtakeOwner x u) := by
  unfold overtakeOwner
  (try dsimp only)
  (repeat' split) <;> first
    | exact hw
    | (simp (maxDischargeDepth := 40) [hw]; done)
    | exact ⟨hw.1⟩

@[simp] theorem startRetract_offered {w₀ u : Units} (x : Ctx) (hw : Offered x w₀ u) :
    Offered x w₀ (startRetract x u) := by
  unfold startRetract
  (try dsimp only)
  (repeat' split) <;> first
    | exact hw
    | (simp (maxDischargeDepth := 40) [hw]; done)
    | exact ⟨hw.1⟩

@[simp] theorem passToWind_offered {w₀ u : Units} (x : Ctx) (hw : Offered x w₀ u) :
    Offered x w₀ (passToWind x u) := by
  unfold passToWind
  simp [hw]

@[simp] theorem judgeRetract_offered {w₀ u : Units} (x : Ctx) (hw : Offered x w₀ u) :
    Offered x w₀ (judgeRetract x u) := by
  unfold judgeRetract
  (repeat' split) <;> simp [hw]

/-! ## ClaimTimers -/

@[simp] theorem firstTest_offered {w₀ u : Units} (i : Nat) (e : WaitEntry) (x : Ctx) (hw : Offered x w₀ u) :
    Offered x w₀ (firstTest i e x u) := by
  unfold firstTest
  simp [hw]

@[simp] theorem expireEntry_offered {w₀ u : Units} (i : Nat) (e : WaitEntry) (x : Ctx) (hw : Offered x w₀ u) :
    Offered x w₀ (expireEntry i e x u) := by
  unfold expireEntry
  simp [hw]

/-! ## Samples -/

@[simp] theorem confirmOverload_offered {w₀ u : Units} (v : Int) (x : Ctx) (hw : Offered x w₀ u) :
    Offered x w₀ (confirmOverload v x u) := by
  unfold confirmOverload
  (try dsimp only)
  (repeat' split) <;> first
    | exact hw
    | (simp (maxDischargeDepth := 40) [hw]; done)
    | exact ⟨hw.1⟩

@[simp] theorem checkOverload_offered {w₀ u : Units} (v : Int) (x : Ctx) (hw : Offered x w₀ u) :
    Offered x w₀ (checkOverload v x u) := by
  unfold checkOverload
  (repeat' split) <;> simp [hw]

@[simp] theorem followJacks_offered {w₀ u : Units} (x : Ctx) (hw : Offered x w₀ u) :
    Offered x w₀ (followJacks x u) := by
  unfold followJacks
  (repeat' split) <;> simp [hw]

@[simp] theorem endLift_offered {w₀ u : Units} (x : Ctx) (hw : Offered x w₀ u) :
    Offered x w₀ (endLift x u) := ⟨hw.1⟩

@[simp] theorem liftSample_offered {w₀ u : Units} (a : TiltAxis) (v : Int) (x : Ctx) (hw : Offered x w₀ u) :
    Offered x w₀ (liftSample a v x u) := by
  unfold liftSample
  (repeat' split) <;> simp [hw]

@[simp] theorem watchDrift_offered {w₀ u : Units} (x : Ctx) (hw : Offered x w₀ u) :
    Offered x w₀ (watchDrift x u) := by
  unfold watchDrift
  (try dsimp only)
  (repeat' split) <;> first
    | exact hw
    | (simp (maxDischargeDepth := 40) [hw]; done)
    | exact ⟨hw.1⟩

/-! ## AxisCommands -/

@[simp] theorem reshapeEnd_offered {w₀ u : Units} (x0 : Ctx) (x : Ctx) (n : Fin 6) (e : RoomEnd) (hw : Offered x w₀
    u) :
    Offered x w₀ (reshapeEnd x0 x n e u) := by
  unfold reshapeEnd
  simp [hw]

@[simp] theorem reshapeAwning_offered {w₀ u : Units} (x0 : Ctx) (x : Ctx) (hw : Offered x w₀ u) :
    Offered x w₀ (reshapeAwning x0 x u) := by
  unfold reshapeAwning
  simp [hw]

@[simp] theorem followRoom_offered {w₀ u : Units} (x : Ctx) (n : Fin 6) (hw : Offered x w₀ u) :
    Offered x w₀ (followRoom x n u) := by
  unfold followRoom
  (repeat' split) <;> simp [hw]

@[simp] theorem freeHeldEnd_offered {w₀ u : Units} (x : Ctx) (n : Fin 6) (hw : Offered x w₀ u) :
    Offered x w₀ (freeHeldEnd x n u) := by
  unfold freeHeldEnd
  (try dsimp only)
  (repeat' split) <;> first
    | exact hw
    | (simp (maxDischargeDepth := 40) [hw]; done)
    | exact ⟨hw.1⟩

@[simp] theorem endOff_offered {w₀ u : Units} (x : Ctx) (n : Fin 6) (e : RoomEnd) (hw : Offered x w₀ u) :
    Offered x w₀ (endOff x n e u) := by
  unfold endOff
  (repeat' split) <;> simp [hw]

@[simp] theorem endHome_offered {w₀ u : Units} (x : Ctx) (n : Fin 6) (e : RoomEnd) (before : Counter) (hw : Offered x
    w₀ u) :
    Offered x w₀ (endHome x n e before u) := by
  unfold endHome
  (repeat' split) <;> simp [hw]

@[simp] theorem endPausedRetract_offered {w₀ u : Units} (x0 x : Ctx) (n : Fin 6) (hw : Offered x w₀ u) :
    Offered x w₀ (endPausedRetract x0 x n u) := by
  unfold endPausedRetract
  (repeat' split) <;> simp [hw]

@[simp] theorem reactIn_offered {w₀ u : Units} (x0 : Ctx) (n : Fin 6) (e : RoomEnd) (made : Bool) (x : Ctx) (hw :
    Offered x
    w₀ u) :
    Offered x w₀ (reactIn x0 n e made x u) := by
  unfold reactIn
  (try dsimp only)
  (repeat' split) <;> first
    | exact hw
    | (simp (maxDischargeDepth := 40) [hw]; done)
    | exact ⟨hw.1⟩

@[simp] theorem followAwningSwitch_offered {w₀ u : Units} (x : Ctx) (hw : Offered x w₀ u) :
    Offered x w₀ (followAwningSwitch x u) := by
  unfold followAwningSwitch
  (repeat' split) <;> simp [hw]

@[simp] theorem reactAwningSwitch_offered {w₀ u : Units} (x0 : Ctx) (made : Bool) (x : Ctx) (hw : Offered x w₀ u) :
    Offered x w₀ (reactAwningSwitch x0 made x u) := by
  unfold reactAwningSwitch
  (try dsimp only)
  (repeat' split) <;> first
    | exact hw
    | (simp (maxDischargeDepth := 40) [hw]; done)
    | exact ⟨hw.1⟩

@[simp] theorem syncHold_offered {w₀ u : Units} (x : Ctx) (n : Fin 6) (hw : Offered x w₀ u) :
    Offered x w₀ (syncHold x n u) := by
  unfold syncHold
  (try dsimp only)
  (repeat' split) <;> first
    | exact hw
    | (simp (maxDischargeDepth := 40) [hw]; done)
    | exact ⟨hw.1⟩

@[simp] theorem stopAtEnd_offered {w₀ u : Units} (x : Ctx) (n : Fin 6) (e : RoomEnd) (hw : Offered x w₀ u) :
    Offered x w₀ (stopAtEnd x n e u) := by
  unfold stopAtEnd
  (repeat' split) <;> simp [hw]

@[simp] theorem releasePin_offered {w₀ u : Units} (x : Ctx) (n : Fin 6) (hw : Offered x w₀ u) :
    Offered x w₀ (releasePin x n u) := by
  unfold releasePin
  (repeat' split) <;> simp [hw]

/-! ## WindCommands -/

@[simp] theorem reactSecond_offered {w₀ u : Units} (was : Bool) (x : Ctx) (hw : Offered x w₀ u) :
    Offered x w₀ (reactSecond was x u) := by
  unfold reactSecond
  simp [hw]

/-! ## MotionTimers -/

@[simp] theorem driveAfterDwell_offered {w₀ u : Units} (x : Ctx) (n : Fin 6) (hw : Offered x w₀ u) :
    Offered x w₀ (driveAfterDwell x n u) := by
  unfold driveAfterDwell
  simp [hw]

@[simp] theorem endDwell_offered {w₀ u : Units} (n : Fin 6) (x : Ctx) (hw : Offered x w₀ u) :
    Offered x w₀ (endDwell n x u) := by
  unfold endDwell
  (try dsimp only)
  (repeat' split) <;> first
    | exact hw
    | (simp (maxDischargeDepth := 40) [hw]; done)
    | exact ⟨hw.1⟩

@[simp] theorem endAwningDwell_offered {w₀ u : Units} (x : Ctx) (hw : Offered x w₀ u) :
    Offered x w₀ (endAwningDwell x u) := by
  unfold endAwningDwell
  simp [hw]

@[simp] theorem beginLift_offered {w₀ u : Units} (x : Ctx) (hw : Offered x w₀ u) :
    Offered x w₀ (beginLift x u) := by
  unfold beginLift
  (try dsimp only)
  (repeat' split) <;> first
    | exact hw
    | (simp (maxDischargeDepth := 40) [hw]; done)
    | exact ⟨hw.1⟩

@[simp] theorem comparePass_offered {w₀ u : Units} (x : Ctx) (passes : Nat) (hw : Offered x w₀ u) :
    Offered x w₀ (comparePass x passes u) := by
  unfold comparePass
  (repeat' split) <;> simp [hw]

@[simp] theorem endSettle_offered {w₀ u : Units} (x : Ctx) (hw : Offered x w₀ u) :
    Offered x w₀ (endSettle x u) := by
  unfold endSettle
  (repeat' split) <;> simp [hw]

/-! ## ManifoldTimers -/

@[simp] theorem endSwitching_offered {w₀ u : Units} (x : Ctx) (hw : Offered x w₀ u) :
    Offered x w₀ (endSwitching x u) := by
  unfold endSwitching
  (try dsimp only)
  (repeat' split) <;> first
    | exact hw
    | (simp (maxDischargeDepth := 40) [hw]; done)
    | exact ⟨hw.1⟩

@[simp] theorem nextHeatInterval_offered {x : Ctx} {w₀ u : Units} (ms : Nat) (hw : Offered x w₀ u) :
    Offered x w₀ (nextHeatInterval ms u) := ⟨hw.1⟩

@[simp] theorem pauseForHeat_offered {w₀ u : Units} (x : Ctx) (k : ManifoldUser) (hw : Offered x w₀ u) :
    Offered x w₀ (pauseForHeat x k u) := by
  unfold pauseForHeat
  (repeat' split) <;> simp [hw]

@[simp] theorem enterCooling_offered {w₀ u : Units} (x : Ctx) (hw : Offered x w₀ u) :
    Offered x w₀ (enterCooling x u) := by
  unfold enterCooling
  (try dsimp only)
  (repeat' split) <;> first
    | exact hw
    | (simp (maxDischargeDepth := 40) [hw]; done)
    | exact ⟨hw.1⟩

end Sys2Proof.Laws
end

