-- ==== Sys2Proof/Laws/PerInstr.lean ====
section
/-! SUPPORT. Per command: a well-formed request row carries a well-formed request, never a malformed frame, whose KIND
is one of the 26 request numbers (R187). -/
namespace Sys2Proof.Laws.Wellformed
open Sys2Proof Sys2Proof.Machine

/-- The request of a well-formed request row is well formed and has a KIND of 1 to 26. -/
def Statement (i : Instr) : Prop :=
  ∀ (l : Link) (tag : Byte) (q : Request), i.request? = some (l, tag, q) → i.wf = true →
    q.wf = true ∧ 1 ≤ (requestKind q).toNat ∧ (requestKind q).toNat ≤ 26

/-- A command that carries no request. -/
theorem of_none {i : Instr} (h : i.request? = none) : Statement i := by
  intro l tag q e
  rw [h] at e
  cases e

/-- A request row, whose request has a number of 1 to 26. -/
theorem of_some {i : Instr} {l : Link} {tag : Byte} {q : Request} (n : Nat) (h : i.request? = some (l, tag, q))
    (hw : i.wf = q.wf) (hk : (requestKind q).toNat = n) (hn : 1 ≤ n ∧ n ≤ 26 := by decide) : Statement i := by
  intro l' tag' q' e w
  rw [h] at e
  cases e
  exact ⟨hw ▸ w, by omega⟩

theorem powerOnReset (pins : ResetPins) : Statement (.powerOnReset pins) := of_none rfl
theorem xrst (pins : ResetPins) : Statement (.xrst pins) := of_none rfl
theorem validFrameReceipt (l : Link) (kind tag : Byte) (payload : List Byte) :
    Statement (.validFrameReceipt l kind tag payload) := of_none rfl
theorem crcMismatchDiscard (l : Link) : Statement (.crcMismatchDiscard l) := of_none rfl
theorem lengthDiscard (l : Link) : Statement (.lengthDiscard l) := of_none rfl
theorem partialFrameTimeout (l : Link) : Statement (.partialFrameTimeout l) := of_none rfl
theorem lineBreak (l : Link) : Statement (.lineBreak l) := of_none rfl
theorem framingError (l : Link) : Statement (.framingError l) := of_none rfl
theorem receiverOverrun (l : Link) : Statement (.receiverOverrun l) := of_none rfl
theorem transmitFrameEnd (l : Link) : Statement (.transmitFrameEnd l) := of_none rfl
theorem silenceDeadline (l : Link) : Statement (.silenceDeadline l) := of_none rfl
theorem ping (l : Link) (tag : Byte) : Statement (.ping l tag) := of_some 1 rfl rfl rfl
theorem linkStatus (l : Link) (tag : Byte) : Statement (.linkStatus l tag) := of_some 2 rfl rfl rfl
theorem profileStage (l : Link) (tag : Byte) (sec : Section) (entries : List (Nat × Int)) :
    Statement (.profileStage l tag sec entries) := of_some 3 rfl rfl rfl
theorem profileCommit (l : Link) (tag : Byte) : Statement (.profileCommit l tag) := of_some 4 rfl rfl rfl
theorem profileAbandon (l : Link) (tag : Byte) : Statement (.profileAbandon l tag) := of_some 5 rfl rfl rfl
theorem profileGet (l : Link) (tag : Byte) (sec : Section) :
    Statement (.profileGet l tag sec) := of_some 6 rfl rfl rfl
theorem postureGet (l : Link) (tag : Byte) : Statement (.postureGet l tag) := of_some 7 rfl rfl rfl
theorem claim (l : Link) (tag : Byte) (groups : List Group) (wait : Bool) (gen : Option Generation) :
    Statement (.claim l tag groups wait gen) := of_some 8 rfl rfl rfl
theorem release (l : Link) (tag : Byte) (groups : List Group) :
    Statement (.release l tag groups) := of_some 9 rfl rfl rfl
theorem preemptionTimeReached (entry : Nat) : Statement (.preemptionTimeReached entry) := of_none rfl
theorem claimWaitDeadline (entry : Nat) : Statement (.claimWaitDeadline entry) := of_none rfl
theorem roomMove (l : Link) (tag : Byte) (g : Group) (d : Direction) (mode : Mode) (target : Option Int)
    (gen : Option Generation) :
    Statement (.roomMove l tag g d mode target gen) := of_some 10 rfl rfl rfl
theorem roomStop (l : Link) (tag : Byte) (g : Group) : Statement (.roomStop l tag g) := of_some 11 rfl rfl rfl
theorem jackAuto (l : Link) (tag : Byte) (mode : Mode) (gen : Option Generation) :
    Statement (.jackAuto l tag mode gen) := of_some 12 rfl rfl rfl
theorem jackSeek (l : Link) (tag : Byte) (mode : Mode) (gen : Option Generation) :
    Statement (.jackSeek l tag mode gen) := of_some 13 rfl rfl rfl
theorem jackJog (l : Link) (tag : Byte) (jacks : List (Fin 6)) (d : JackDir) (mode : Mode) (gen : Option Generation) :
    Statement (.jackJog l tag jacks d mode gen) := of_some 14 rfl rfl rfl
theorem jackRetract (l : Link) (tag : Byte) (mode : Mode) (gen : Option Generation) :
    Statement (.jackRetract l tag mode gen) := of_some 15 rfl rfl rfl
theorem jackStop (l : Link) (tag : Byte) : Statement (.jackStop l tag) := of_some 16 rfl rfl rfl
theorem awningMove (l : Link) (tag : Byte) (d : Direction) (mode : Mode) (percent : Option Nat)
    (gen : Option Generation) :
    Statement (.awningMove l tag d mode percent gen) := of_some 17 rfl rfl rfl
theorem awningStop (l : Link) (tag : Byte) : Statement (.awningStop l tag) := of_some 18 rfl rfl rfl
theorem stopAll (l : Link) (tag : Byte) : Statement (.stopAll l tag) := of_some 19 rfl rfl rfl
theorem holdRefresh (l : Link) (tag : Byte) (g : Group) : Statement (.holdRefresh l tag g) := of_some 20 rfl rfl rfl
theorem attentionSet (l : Link) (tag : Byte) (level : Nat) :
    Statement (.attentionSet l tag level) := of_some 21 rfl rfl rfl
theorem linesSet (l : Link) (tag : Byte) (sel : List (Line × Bool)) :
    Statement (.linesSet l tag sel) := of_some 22 rfl rfl rfl
theorem mapWrite (l : Link) (tag : Byte) (line : Line) (fields : List MapField) :
    Statement (.mapWrite l tag line fields) := of_some 23 rfl rfl rfl
theorem mapRead (l : Link) (tag : Byte) (line : Line) : Statement (.mapRead l tag line) := of_some 24 rfl rfl rfl
theorem faultGet (l : Link) (tag : Byte) (subject : Option Subject) :
    Statement (.faultGet l tag subject) := of_some 25 rfl rfl rfl
theorem faultClear (l : Link) (tag : Byte) (subject : Subject) :
    Statement (.faultClear l tag subject) := of_some 26 rfl rfl rfl
theorem vbatSample (v : Int) : Statement (.vbatSample v) := of_none rfl
theorem ibusSample (v : Int) : Statement (.ibusSample v) := of_none rfl
theorem pmanSample (v : Int) : Statement (.pmanSample v) := of_none rfl
theorem pjSample (j : Fin 6) (v : Int) : Statement (.pjSample j v) := of_none rfl
theorem tiltSample (axis : TiltAxis) (v : Int) : Statement (.tiltSample axis v) := of_none rfl
theorem roadSpeedWindowEnd : Statement .roadSpeedWindowEnd := of_none rfl
theorem estopAsserted : Statement .estopAsserted := of_none rfl
theorem estopReleased : Statement .estopReleased := of_none rfl
theorem spdPulse : Statement .spdPulse := of_none rfl
theorem inSwitchChange (n : Fin 6) (e : RoomEnd) (made : Bool) : Statement (.inSwitchChange n e made) := of_none rfl
theorem lockSwitchChange (n : Fin 6) (sw : LockSwitch) (made : Bool) :
    Statement (.lockSwitchChange n sw made) := of_none rfl
theorem jackStowedSwitchChange (j : Fin 6) (made : Bool) : Statement (.jackStowedSwitchChange j made) := of_none rfl
theorem awningStowedSwitchChange (made : Bool) : Statement (.awningStowedSwitchChange made) := of_none rfl
theorem axisPulse (a : Axis) : Statement (.axisPulse a) := of_none rfl
theorem stall (a : Axis) : Statement (.stall a) := of_none rfl
theorem anemometerPulse : Statement .anemometerPulse := of_none rfl
theorem windSecondBoundary : Statement .windSecondBoundary := of_none rfl
theorem lineDebounceChange (n : Fin 16) (level : Level) (since : CoachTime) :
    Statement (.lineDebounceChange n level since) := of_none rfl
theorem virtualLineDeadline (v : Fin 8) : Statement (.virtualLineDeadline v) := of_none rfl
theorem periodicFrameStart : Statement .periodicFrameStart := of_none rfl
theorem echoReceived (e : Echo) : Statement (.echoReceived e) := of_none rfl
theorem echoMissing : Statement .echoMissing := of_none rfl
theorem pinTimeout (n : Fin 6) : Statement (.pinTimeout n) := of_none rfl
theorem roomDwellEnd (n : Fin 6) : Statement (.roomDwellEnd n) := of_none rfl
theorem awningDwellEnd : Statement .awningDwellEnd := of_none rfl
theorem holdDeadlineExpiry (g : Group) : Statement (.holdDeadlineExpiry g) := of_none rfl
theorem seekTimeout : Statement .seekTimeout := of_none rfl
theorem settleEnd : Statement .settleEnd := of_none rfl
theorem liftDeadline : Statement .liftDeadline := of_none rfl
theorem retractTimeout : Statement .retractTimeout := of_none rfl
theorem switchingEnd : Statement .switchingEnd := of_none rfl
theorem heatRise : Statement .heatRise := of_none rfl
theorem heatFall : Statement .heatFall := of_none rfl
theorem byteReceived (l : Link) (b : Byte) : Statement (.byteReceived l b) := of_none rfl

end Sys2Proof.Laws.Wellformed
end

