-- ==== Sys2Proof/Laws/Release.lean ====
section
/-! SUPPORT. What the release of groups and the fall of a line leave: a group released on behalf of a link is unclaimed
and not moving for it, or is a room that finishes its PIN_ENGAGE marked (R30, R31, R41, R105), and neither another
release nor a line's deactivation undoes that. -/
namespace Sys2Proof.Laws
open Sys2Proof.Machine Sys2Proof.Safety

/-- What the release of a group on behalf of a link leaves (R30, R31, R41, R105). -/
def Freed (l : Link) (res : MotionResult) (g : Group) (u : Units) : Prop :=
  (claimOf u g = none ∧ motionRequester u g ≠ some (.link l))
  ∨ ∃ n mo c, g = .room n ∧ u.rooms[n].motion = some mo ∧ mo.requester = .link l ∧ mo.step = .pinEngage
      ∧ mo.pending = some res ∧ claimOf u g = some c ∧ c.mark = true

theorem Freed.keep {l : Link} {res : MotionResult} {g : Group} {u v : Units} (hc : claimOf v g = claimOf u g) (hg :
    GroupHeld g u v)
    (h : Freed l res g u) : Freed l res g v := by
  rcases h with ⟨h1, h2⟩ | ⟨n, mo, c, e, hm, hr, hs, hp, hk, hmk⟩
  · exact .inl ⟨hc.trans h1, by rw [motionRequester_group hg]; exact h2⟩
  · subst e
    obtain ⟨mo', em, k⟩ := hg.2 mo hm
    exact .inr ⟨n, mo', c, rfl, em, k.requester.trans hr, (k.engage hs).1, ((k.engage hs).2).trans hp, hc.trans hk,
        hmk⟩

theorem setClaim_requester (g k : Group) (c : Option Claim) (u : Units) :
    motionRequester (setClaim g c u) k = motionRequester u k := by
  cases k <;> rfl

theorem stopMotion_requester (x : Ctx) (g : Group) (res : MotionResult) (u : Units) :
    motionRequester (stopMotion x g res u) g = none ∨ motionRequester (stopMotion x g res u) g = motionRequester u g
        := by
  unfold stopMotion
  split
  · next n =>
    split
    · next h =>
      unfold roomStopProcedure
      split
      · right
        cases hm : u.rooms[n].motion with
        | none => rw [hm] at h; simp at h
        | some m =>
          have h0 : (roomOutputsOff n u).rooms[n].motion = some m := (roomOutputsOff_motion n u).trans hm
          obtain ⟨m', e, hr, _⟩ := pinEngage_motion x n (some res) h0
          obtain ⟨m2, e2, k⟩ := (roomRelease_held x n (pinEngage x n (some res) (roomOutputsOff n u))).aRoom n m' e
          simp only [motionRequester, hm, e2, Option.map_some, k.requester, hr]
      · left
        cases hm : u.rooms[n].motion with
        | none => rw [hm] at h; simp at h
        | some m => simp only [motionRequester, (endRoom_spec x n res _ hm).2.1, Option.map_none]
    · right; rfl
  · cases hm : u.jacks.motion with
    | none => right; rw [endJacks_none _ _ _ hm]
    | some m => left; simp only [motionRequester, (endJacks_spec x res _ hm).2.1, Option.map_none]
  · cases hm : u.awning.motion with
    | none => right; rw [endAwning_none _ _ _ hm]
    | some m => left; simp only [motionRequester, (endAwning_spec x res _ hm).2.1, Option.map_none]

theorem stopMotion_claim (x : Ctx) (g : Group) (res : MotionResult) (u : Units) :
    claimOf (stopMotion x g res u) g = claimOf u g ∨ claimOf (stopMotion x g res u) g = none := by
  have key : ∀ o : Option Claim,
      (match o with
        | some c => if (c.kind = .transient || c.mark) = true then none else some c
        | none => none) = o
      ∨ (match o with
        | some c => if (c.kind = .transient || c.mark) = true then none else some c
        | none => none) = none := by
    intro o
    cases o with
    | none => exact .inl rfl
    | some c => dsimp only; split; exact .inr rfl; exact .inl rfl
  unfold stopMotion
  split
  · next n =>
    split
    · next h =>
      unfold roomStopProcedure
      split
      · left
        unfold claimOf
        rw [(roomRelease_held _ _ _).claims, (pinEngage_only _ _ _ _).claims, (roomOutputsOff_only _ _).claims]
      · cases hm : u.rooms[n].motion with
        | none => rw [hm] at h; simp at h
        | some m => rw [(endRoom_spec x n res _ hm).2.2.2.2]; exact key _
    · left; rfl
  · cases hm : u.jacks.motion with
    | none => left; rw [endJacks_none _ _ _ hm]
    | some m => rw [(endJacks_spec x res _ hm).2.2.2.2]; exact key _
  · cases hm : u.awning.motion with
    | none => left; rw [endAwning_none _ _ _ hm]
    | some m => rw [(endAwning_spec x res _ hm).2.2.2.2]; exact key _

/-- A group's release on behalf of a link that holds it. -/
theorem releaseGroup_freed (x : Ctx) (l : Link) (res : MotionResult) (g : Group) (u : Units) (c : Claim) (hc :
    claimOf u g = some c) :
    Freed l res g (releaseGroup x l res u g) := by
  unfold releaseGroup
  dsimp only
  by_cases hr : motionRequester u g = some (.link l)
  · rw [if_pos hr]
    by_cases hr' : motionRequester (stopForLink x res g u) g = some (.link l)
    · rw [if_pos hr']
      right
      cases g with
      | room n =>
        unfold stopForLink at hr' ⊢
        dsimp only at hr' ⊢
        obtain ⟨m, hm, hrm⟩ : ∃ m, u.rooms[n].motion = some m ∧ m.requester = .link l := by
          simpa [motionRequester] using hr
        by_cases hp : inPinEngage u n = true
        · rw [if_pos hp]
          have hs : m.step = .pinEngage := by
            unfold inPinEngage at hp; rw [hm] at hp; simpa using hp
          refine ⟨n, { m with pending := some res }, { c with mark := true }, rfl, ?_, hrm, hs, rfl, ?_, rfl⟩
          · show (setPending n (some res) u).rooms[n].motion = _
            unfold setPending; rw [updRoomMotion_motion, hm]; rfl
          · unfold setMark; rw [claimOf_setClaim, if_pos rfl]
            show Option.map _ (claimOf u (.room n)) = _
            rw [hc]; rfl
        · rw [if_neg hp] at hr' ⊢
          have hms : (u.rooms[n].motion.isSome && !inPinEngage u n) = true := by
            rw [hm]; simpa using hp
          unfold stopMotion at hr' ⊢
          dsimp only at hr' ⊢
          rw [if_pos hms] at hr' ⊢
          unfold roomStopProcedure at hr' ⊢
          split at hr'
          · next hcond =>
            rw [if_pos hcond]
            have h0 : (roomOutputsOff n u).rooms[n].motion = some m := (roomOutputsOff_motion n u).trans hm
            obtain ⟨m', e, hr2, hs2, hp2⟩ := pinEngage_motion x n (some res) h0
            obtain ⟨m2, e2, k⟩ := (roomRelease_held x n (pinEngage x n (some res) (roomOutputsOff n u))).aRoom n m' e
            refine ⟨n, m2, { c with mark := true }, rfl, e2, (k.requester.trans hr2).trans hrm, (k.engage hs2).1,
                ((k.engage hs2).2).trans hp2, ?_, rfl⟩
            unfold setMark; rw [claimOf_setClaim, if_pos rfl]
            have : claimOf (roomRelease x n (pinEngage x n (some res) (roomOutputsOff n u))) (.room n) = claimOf u
                (.room n) := by
              unfold claimOf
              rw [(roomRelease_held _ _ _).claims, (pinEngage_only _ _ _ _).claims, (roomOutputsOff_only _ _).claims]
            rw [this, hc]; rfl
          · rw [show motionRequester (endRoom x n res (x.roomStopped n) u) (.room n) = none by
              simp only [motionRequester, (endRoom_spec x n res _ hm).2.1, Option.map_none]] at hr'
            cases hr'
      | jacks =>
        exfalso
        obtain ⟨m, hm, _⟩ : ∃ m, u.jacks.motion = some m ∧ m.requester = .link l := by simpa [motionRequester] using
            hr
        have : motionRequester (stopForLink x res .jacks u) .jacks = none := by
          show motionRequester (endJacks x res x.jacksSettled u) .jacks = none
          simp only [motionRequester, (endJacks_spec x res _ hm).2.1, Option.map_none]
        rw [this] at hr'; cases hr'
      | awning =>
        exfalso
        obtain ⟨m, hm, _⟩ : ∃ m, u.awning.motion = some m ∧ m.requester = .link l := by simpa [motionRequester] using
            hr
        have : motionRequester (stopForLink x res .awning u) .awning = none := by
          show motionRequester (endAwning x res x.awningSettled u) .awning = none
          simp only [motionRequester, (endAwning_spec x res _ hm).2.1, Option.map_none]
        rw [this] at hr'; cases hr'
    · rw [if_neg hr']
      left
      exact ⟨by rw [claimOf_setClaim, if_pos rfl], by rw [setClaim_requester]; exact hr'⟩
  · rw [if_neg hr, if_neg hr]
    left
    exact ⟨by rw [claimOf_setClaim, if_pos rfl], by rw [setClaim_requester]; exact hr⟩

theorem releaseGroup_keepsFreed (x : Ctx) (l : Link) (res : MotionResult) (u : Units) (g k : Group) (hk : k ≠ g) (h :
    Freed l res k u) :
    Freed l res k (releaseGroup x l res u g) :=
  h.keep ((releaseGroup_but x l res u g).claims k hk) ((releaseGroup_but x l res u g).groups k hk)

theorem foldl_releaseGroup (x : Ctx) (l : Link) (res : MotionResult) : ∀ (gs : List Group) (u : Units), gs.Nodup →
    (∀ g ∈ gs, (claimOf u g).isSome) →
    (∀ g ∈ gs, Freed l res g (gs.foldl (releaseGroup x l res) u))
      ∧ (∀ g, g ∉ gs → claimOf (gs.foldl (releaseGroup x l res) u) g = claimOf u g ∧ GroupHeld g u (gs.foldl
          (releaseGroup x l res) u))
      ∧ (gs.foldl (releaseGroup x l res) u).waitList = u.waitList
  | [], u, _, _ => ⟨fun g h => (nomatch h), fun g _ => ⟨rfl, .refl g u⟩, rfl⟩
  | g :: gs, u, hn, hc => by
    simp only [List.nodup_cons] at hn
    have hb := releaseGroup_but x l res u g
    obtain ⟨c, hcg⟩ := Option.isSome_iff_exists.1 (hc g (List.mem_cons_self ..))
    have hf := releaseGroup_freed x l res g u c hcg
    obtain ⟨i1, i2, i3⟩ := foldl_releaseGroup x l res gs (releaseGroup x l res u g) hn.2 (fun k hk => by
      rw [hb.claims k (fun e => hn.1 (e ▸ hk))]; exact hc k (List.mem_cons_of_mem _ hk))
    refine ⟨fun k hk => ?_, fun k hk => ?_, i3.trans hb.waitList⟩
    · rcases List.mem_cons.1 hk with e | e
      · subst e; exact hf.keep (i2 k hn.1).1 (i2 k hn.1).2
      · exact i1 k e
    · have h1 : k ≠ g := fun e => hk (e ▸ List.mem_cons_self ..)
      have h2 : k ∉ gs := fun e => hk (List.mem_cons_of_mem _ e)
      exact ⟨(i2 k h2).1.trans (hb.claims k h1), (hb.groups k h1).trans (i2 k h2).2⟩

theorem held_claimOf {u v : Units} (h : Held u v) (g : Group) : claimOf v g = claimOf u g := by unfold claimOf; rw
    [h.claims]

/-- Several groups a link holds released in one event. -/
theorem releaseAll_spec (x : Ctx) (l : Link) (res : MotionResult) (gs : List Group) (u : Units) (hn : gs.Nodup) (hc :
    ∀ g ∈ gs, (claimOf u g).isSome) :
    (∀ g ∈ gs, Freed l res g (releaseAll x l res gs u))
      ∧ (∀ g, g ∉ gs → claimOf (releaseAll x l res gs u) g = claimOf u g ∧ GroupHeld g u (releaseAll x l res gs u))
      ∧ (releaseAll x l res gs u).waitList = u.waitList := by
  unfold releaseAll
  dsimp only
  generalize hd : detach (gs.filter fun g => motionRequester u g == some (.link l)) u = r
  have h0 : Held u r.1 := hd ▸ detach_held _ _
  obtain ⟨i1, i2, i3⟩ := foldl_releaseGroup x l res gs r.1 hn (fun g hg => by rw [held_claimOf h0]; exact hc g hg)
  have key : ∀ v, Held (gs.foldl (releaseGroup x l res) r.1) v →
      (∀ g ∈ gs, Freed l res g v) ∧ (∀ g, g ∉ gs → claimOf v g = claimOf u g ∧ GroupHeld g u v) ∧ v.waitList =
          u.waitList := fun v hv =>
    ⟨fun g hg => (i1 g hg).keep (held_claimOf hv g) (hv.group g),
      fun g hg => ⟨((held_claimOf hv g).trans (i2 g hg).1).trans (held_claimOf h0 g), ((h0.group g).trans (i2 g
          hg).2).trans (hv.group g)⟩,
      (hv.waitList.trans i3).trans h0.waitList⟩
  split
  · exact key _ (admissionPass_held _ _)
  · exact key _ (.refl _)

theorem heldByLine_wl {u : Units} {g : Group} {L : Line} (h : heldByLine u g L = true) :
    motionRequester u g = some .wl := by
  unfold heldByLine at h
  cases g <;> dsimp only at h <;> rw [Option.any_eq_true] at h <;> obtain ⟨m, hm, h⟩ := h <;> simp only
      [Bool.and_eq_true, beq_iff_eq] at h <;>
    simp only [motionRequester, hm, Option.map_some, h.1]

theorem lineReleased_freed (x : Ctx) (l : Link) (res : MotionResult) (g k : Group) (L : Line) {u : Units} (h : Freed
    l res k u) :
    Freed l res k (lineReleased x g L u) := by
  unfold lineReleased
  split
  · next hl =>
    have hw := heldByLine_wl hl
    by_cases e : k = g
    · subst e
      rcases h with ⟨h1, h2⟩ | ⟨n, mo, c, e, hm, hr, _⟩
      · left
        refine ⟨?_, ?_⟩
        · rcases stopMotion_claim x k .released u with q | q
          · rw [q]; exact h1
          · exact q
        · rcases stopMotion_requester x k .released u with q | q
          · rw [q]; simp
          · rw [q]; exact h2
      · subst e
        simp only [motionRequester, hm, Option.map_some, hr] at hw
        cases hw
    · exact h.keep ((stopMotion_but x g .released u).claims k e) ((stopMotion_but x g .released u).groups k e)
  · exact h

/-- What a deactivation of a line does to the units. -/
theorem deactivate_units (m : Measured) (L : Line) (d : Desk) :
    (deactivate m L d).u.waitList = d.u.waitList ∧ (∀ l res k, Freed l res k d.u → Freed l res k (deactivate m L d).u)
      ∧ Offered (d.ctx m) d.u (deactivate m L d).u := by
  have but : ∀ v, ButOut d.u v → v.waitList = d.u.waitList ∧ (∀ l res k, Freed l res k d.u →
      Freed l res k v) := fun v h =>
    ⟨h.held.waitList, fun l res k f => f.keep (held_claimOf h.held k) (h.held.group k)⟩
  unfold deactivate
  dsimp only
  split
  · exact ⟨rfl, fun _ _ _ h => h, .refl _ _⟩
  · split
    · exact ⟨(but _ (offerRoute_butOut _ _ _ _)).1, (but _ (offerRoute_butOut _ _ _ _)).2, offerRoute_offered _ _ _
        (.refl _ _)⟩
    · exact ⟨rfl, fun _ _ _ h => h, .refl _ _⟩
  · unfold setPark
    dsimp only
    split
    · exact ⟨(but _ (offerAll_butOut _ _ _)).1, (but _ (offerAll_butOut _ _ _)).2, offerAll_offered _ _ (.refl _ _)⟩
    · exact ⟨rfl, fun _ _ _ h => h, .refl _ _⟩
  · have e : (setIgn m false d).u = d.u := by unfold setIgn; simp
    rw [e]
    exact ⟨rfl, fun _ _ _ h => h, .refl _ _⟩
  all_goals
    split
    · dsimp only
      split
      · next g _ =>
        refine ⟨?_, fun l res k h => lineReleased_freed _ l res _ k _ h, ?_⟩
        · unfold lineReleased; split
          · exact (stopMotion_but _ _ _ _).waitList
          · rfl
        · exact lineReleased_offered _ _ _ (.refl _ _)
      · exact ⟨rfl, fun _ _ _ h => h, .refl _ _⟩
    · exact ⟨rfl, fun _ _ _ h => h, .refl _ _⟩

end Sys2Proof.Laws
end

