-- ==== Sys2Proof/Laws/Shape.lean ====
section
/-! SUPPORT. The three shapes of what a command does: a reset, an event that is settled and whose ports are served, or a
plain write that leaves receive queues, transmitters and outgoing queues alone. -/
namespace Sys2Proof.Laws
open Sys2Proof.Machine Sys2Proof.Safety

/-- What a command makes of a state. -/
inductive Shape (s t : State) : Prop
  | reset (hp : t.pending = s.pending) (hc : ∃ pins, t.c = Setup.atReset pins) (ho : t.u.out = Vector.replicate 3 {})
  | event (m : Measured) (d : Desk) (due : Bool) (ht : t = settleEvent s m d due)
      (hr : ∀ k : Link, (d.c.ports[linkIdx k]).rx.length ≤ max Config.rxMax (s.c.ports[linkIdx k]).rx.length)
  | plain (hp : t.pending = s.pending) (ho : t.u.out = s.u.out)
      (hc : ∀ k : Link, (t.c.ports[linkIdx k]).rx = (s.c.ports[linkIdx k]).rx
        ∧ (t.c.ports[linkIdx k]).sending = (s.c.ports[linkIdx k]).sending)

theorem shape_same {s t : State} (hp : t.pending = s.pending) (ho : t.u.out = s.u.out) (hc : t.c = s.c) : Shape s t :=
  .plain hp ho fun _ => by rw [hc]; exact ⟨rfl, rfl⟩

theorem shape_next {s a t : State} (e : (Host.Outcome.next a : Answer) = .next t) (h : Shape s a) : Shape s t := by
  cases e; exact h

theorem shape_self {s t : State} (e : (Host.Outcome.next s : Answer) = .next t) : Shape s t :=
  shape_next e (shape_same rfl rfl rfl)

/-- An event whose command leaves the ports alone. -/
theorem shape_event {s t : State} {m : Measured} {d : Desk} {due : Bool}
    (e : (Host.Outcome.next (settleEvent s m d due) : Answer) = .next t) (h : d.c.ports = s.c.ports) : Shape s t := by
  refine shape_next e (.event m d due rfl fun k => ?_)
  rw [h]; exact Nat.le_max_right _ _

theorem shape_unit {s t : State} {m : Measured} {f : Ctx → Units → Units}
    (e : (Host.Outcome.next (unitEvent s m f) : Answer) = .next t) : Shape s t :=
  shape_event (d := { s.desk with u := f { m := m, c := s.c } s.u }) e rfl

/-- A write of one port that leaves its receive queue and its transmitter. -/
theorem shape_port {s t : State} {l : Link} {f : PortIn → PortIn} (e : setupEvent s (updPort s.c l f) = .next t)
    (h : ∀ p, (f p).rx = p.rx ∧ (f p).sending = p.sending) : Shape s t := by
  cases e
  refine .plain rfl rfl fun k => ?_
  show (((updPort s.c l f).ports[linkIdx k]).rx = _) ∧ (((updPort s.c l f).ports[linkIdx k]).sending = _)
  rw [updPort_read]
  split
  · next i => subst i; exact h _
  · exact ⟨rfl, rfl⟩

theorem shape_discard {s t : State} {l : Link} {f : Tallies → Tallies} (e : setupEvent s (discardFrame l f s.c) = .next t) :
    Shape s t :=
  shape_port (f := fun p => { p with tallies := f p.tallies, part := none }) e fun _ => ⟨rfl, rfl⟩

theorem queueRequest_rx (l : Link) (q : QueuedRequest) (d : Desk) (k : Link) :
    ((queueRequest l q d).c.ports[linkIdx k]).rx.length ≤ max Config.rxMax (d.c.ports[linkIdx k]).rx.length := by
  unfold queueRequest
  repeat' split
  · next h =>
    simp only [updPort_read]
    split
    · rw [List.length_append]; exact (Nat.succ_le_of_lt h).trans (Nat.le_max_left _ _)
    · exact Nat.le_max_right _ _
  · exact Nat.le_max_right _ _
  · simp only [updPort_read]
    split
    · next e => subst e; exact Nat.le_max_right _ _
    · exact Nat.le_max_right _ _

theorem hearLink_rx (m : Measured) (l : Link) (c : Setup) (k : Link) :
    ((hearLink m l c).ports[linkIdx k]).rx = (c.ports[linkIdx k]).rx := by
  unfold hearLink
  simp only [updPort_read]
  split
  · next e => subst e; rfl
  · rfl

theorem shape_receive {l : Link} {tag : Byte} {q : Request} {s t : State} (e : receive l tag q s = .next t) : Shape s t := by
  unfold receive at e
  refine shape_next e (.event _ _ _ rfl fun k => ?_)
  refine (queueRequest_rx l _ _ k).trans ?_
  show max _ ((hearLink s.m l s.c).ports[linkIdx k]).rx.length ≤ _
  rw [hearLink_rx]

theorem silenceUnits_ports (m : Measured) (l : Link) (d : Desk) : (silenceUnits m l d).c.ports = d.c.ports := by
  unfold silenceUnits
  rw [silenceVirtual_ports]
  dsimp only
  split <;> rfl

theorem silence_rx (m : Measured) (l : Link) (d : Desk) (k : Link) :
    ((silenceUnits m l (silencePort l d)).c.ports[linkIdx k]).rx.length ≤ (d.c.ports[linkIdx k]).rx.length := by
  rw [silenceUnits_ports]
  unfold silencePort
  simp only [updPort_read]
  split
  · exact Nat.zero_le _
  · exact Nat.le_refl _

/-- Every command has one of the three shapes. -/
theorem exec_shape (i : Instr) (s : State) {t : State} (e : exec i s = .next t) : Shape s t := by
  cases i
  case ping | linkStatus | profileStage | profileCommit | profileAbandon | profileGet | postureGet | claim | release
      | roomMove | roomStop | jackAuto | jackSeek | jackJog | jackRetract | jackStop | awningMove | awningStop
      | stopAll | holdRefresh | attentionSet | linesSet | mapWrite | mapRead | faultGet | faultClear | validFrameReceipt =>
    exact shape_receive e
  all_goals simp only [exec] at e
  case powerOnReset pins => exact shape_next e (.reset rfl ⟨pins, rfl⟩ rfl)
  case xrst pins => exact shape_next e (.reset rfl ⟨pins, rfl⟩ rfl)
  case byteReceived l b =>
    unfold execByteReceived collectByte at e
    repeat' split at e
    · exact shape_port e fun _ => ⟨rfl, rfl⟩
    · exact shape_self e
    · exact shape_discard e
    · exact shape_port e fun _ => ⟨rfl, rfl⟩
    · exact shape_port e fun _ => ⟨rfl, rfl⟩
    · exact shape_receive e
    · exact shape_discard e
  case crcMismatchDiscard => exact shape_discard e
  case lengthDiscard => exact shape_discard e
  case framingError => exact shape_discard e
  case receiverOverrun => exact shape_discard e
  case partialFrameTimeout =>
    unfold execPartialFrameTimeout at e
    repeat' split at e
    · exact shape_discard e
    · exact shape_self e
    · exact shape_self e
  case lineBreak =>
    unfold execLineBreak at e
    split at e
    · exact shape_discard e
    · exact shape_self e
  case transmitFrameEnd l =>
    unfold execTransmitFrameEnd at e
    split at e
    · refine shape_next e (.event _ _ _ rfl fun k => ?_)
      simp only [updPort_read]
      split
      · next i => subst i; exact Nat.le_max_right _ _
      · exact Nat.le_max_right _ _
    · exact shape_self e
  case silenceDeadline l =>
    unfold execSilenceDeadline at e
    split at e
    · exact shape_next e (.event _ _ _ rfl fun k => (silence_rx s.m l s.desk k).trans (Nat.le_max_right _ _))
    · exact shape_self e
  case lineDebounceChange => exact shape_event e (showLevel_ports _ _ _ _ _)
  case virtualLineDeadline =>
    unfold execVirtualLineDeadline at e
    split at e
    · exact shape_event e (dropVirtual_ports _ _ _)
    · exact shape_self e
  case periodicFrameStart =>
    unfold execPeriodicFrameStart at e
    split at e
    · exact shape_event e rfl
    · exact shape_self e
  case echoMissing =>
    unfold execEchoMissing at e
    repeat' split at e
    · exact shape_self e
    · exact shape_event e rfl
    · exact shape_self e
  case spdPulse => exact shape_next e (shape_same rfl rfl rfl)
  case anemometerPulse => exact shape_next e (shape_same rfl rfl rfl)
  case vbatSample => exact shape_unit e
  case ibusSample => exact shape_unit e
  case pmanSample => exact shape_unit e
  case tiltSample => exact shape_unit e
  case axisPulse =>
    unfold execAxisPulse at e
    dsimp only at e
    split at e
    · exact shape_next e (shape_same rfl rfl rfl)
    · exact shape_unit e
  case heatRise =>
    unfold execHeatRise at e
    dsimp only at e
    repeat' split at e
    · exact shape_unit e
    · exact shape_next e (shape_same rfl rfl rfl)
    · exact shape_self e
  case heatFall =>
    unfold execHeatFall at e
    dsimp only at e
    repeat' split at e
    · exact shape_unit e
    · exact shape_next e (shape_same rfl rfl rfl)
    · exact shape_self e
  case preemptionTimeReached =>
    unfold execPreemptionTimeReached at e
    repeat' split at e
    · exact shape_unit e
    all_goals exact shape_self e
  case claimWaitDeadline =>
    unfold execClaimWaitDeadline at e
    repeat' split at e
    · exact shape_unit e
    all_goals exact shape_self e
  case pjSample =>
    unfold execPjSample at e
    split at e
    · exact shape_unit e
    · exact shape_self e
  case roadSpeedWindowEnd =>
    unfold execRoadSpeedWindowEnd at e
    split at e
    · exact shape_unit e
    · exact shape_self e
  case estopAsserted =>
    unfold execEstopAsserted at e
    split at e
    · exact shape_self e
    · exact shape_unit e
  case estopReleased =>
    unfold execEstopReleased at e
    split at e
    · exact shape_unit e
    · exact shape_self e
  case inSwitchChange =>
    unfold execInSwitchChange at e
    split at e
    · exact shape_self e
    · exact shape_unit e
  case lockSwitchChange =>
    unfold execLockSwitchChange at e
    split at e
    · exact shape_self e
    · exact shape_unit e
  case jackStowedSwitchChange =>
    unfold execJackStowedSwitchChange at e
    split at e
    · exact shape_self e
    · exact shape_unit e
  case awningStowedSwitchChange =>
    unfold execAwningStowedSwitchChange at e
    split at e
    · exact shape_self e
    · exact shape_unit e
  case stall =>
    unfold execStall at e
    split at e
    · exact shape_unit e
    · exact shape_self e
  case windSecondBoundary =>
    unfold execWindSecondBoundary at e
    split at e
    · exact shape_unit e
    · exact shape_self e
  case pinTimeout =>
    unfold execPinTimeout at e
    split at e
    · exact shape_unit e
    · exact shape_self e
  case roomDwellEnd =>
    unfold execRoomDwellEnd at e
    split at e
    · exact shape_unit e
    · exact shape_self e
  case awningDwellEnd =>
    unfold execAwningDwellEnd at e
    split at e
    · exact shape_unit e
    · exact shape_self e
  case holdDeadlineExpiry =>
    unfold execHoldDeadlineExpiry at e
    split at e
    · exact shape_unit e
    · exact shape_self e
  case seekTimeout =>
    unfold execSeekTimeout at e
    split at e
    · exact shape_unit e
    · exact shape_self e
  case settleEnd =>
    unfold execSettleEnd at e
    split at e
    · exact shape_unit e
    · exact shape_self e
  case liftDeadline =>
    unfold execLiftDeadline at e
    split at e
    · exact shape_unit e
    · exact shape_self e
  case retractTimeout =>
    unfold execRetractTimeout at e
    split at e
    · exact shape_unit e
    · exact shape_self e
  case switchingEnd =>
    unfold execSwitchingEnd at e
    split at e
    · exact shape_unit e
    · exact shape_self e
  case echoReceived =>
    unfold execEchoReceived at e
    split at e
    · exact shape_self e
    · exact shape_unit e

end Sys2Proof.Laws
end

