-- ==== Sys2Proof/Laws/State.lean ====
section
/-! SUPPORT. One lemma per field of Units for every record update of the units, and of Setup for a port's update: the
field written takes its new value, every other field is the field it was. -/
namespace Sys2Proof.Laws
open Sys2Proof.Machine

/-! ## updOut -/

@[simp] theorem updOut_generation (u : Units) (l : Link) (f : PortOut → PortOut) : (updOut u l f).generation = u.generation := rfl
@[simp] theorem updOut_claims (u : Units) (l : Link) (f : PortOut → PortOut) : (updOut u l f).claims = u.claims := rfl
@[simp] theorem updOut_waitList (u : Units) (l : Link) (f : PortOut → PortOut) : (updOut u l f).waitList = u.waitList := rfl
@[simp] theorem updOut_admissions (u : Units) (l : Link) (f : PortOut → PortOut) : (updOut u l f).admissions = u.admissions := rfl
@[simp] theorem updOut_budgetQueue (u : Units) (l : Link) (f : PortOut → PortOut) : (updOut u l f).budgetQueue = u.budgetQueue := rfl
@[simp] theorem updOut_overload (u : Units) (l : Link) (f : PortOut → PortOut) : (updOut u l f).overload = u.overload := rfl
@[simp] theorem updOut_manifold (u : Units) (l : Link) (f : PortOut → PortOut) : (updOut u l f).manifold = u.manifold := rfl
@[simp] theorem updOut_image (u : Units) (l : Link) (f : PortOut → PortOut) : (updOut u l f).image = u.image := rfl
@[simp] theorem updOut_chainEn (u : Units) (l : Link) (f : PortOut → PortOut) : (updOut u l f).chainEn = u.chainEn := rfl
@[simp] theorem updOut_flight (u : Units) (l : Link) (f : PortOut → PortOut) : (updOut u l f).flight = u.flight := rfl
@[simp] theorem updOut_changePending (u : Units) (l : Link) (f : PortOut → PortOut) : (updOut u l f).changePending = u.changePending := rfl
@[simp] theorem updOut_frameStart (u : Units) (l : Link) (f : PortOut → PortOut) : (updOut u l f).frameStart = u.frameStart := rfl
@[simp] theorem updOut_driveOn (u : Units) (l : Link) (f : PortOut → PortOut) : (updOut u l f).driveOn = u.driveOn := rfl
@[simp] theorem updOut_rooms (u : Units) (l : Link) (f : PortOut → PortOut) : (updOut u l f).rooms = u.rooms := rfl
@[simp] theorem updOut_jacks (u : Units) (l : Link) (f : PortOut → PortOut) : (updOut u l f).jacks = u.jacks := rfl
@[simp] theorem updOut_awning (u : Units) (l : Link) (f : PortOut → PortOut) : (updOut u l f).awning = u.awning := rfl
@[simp] theorem updOut_pendingMarks (u : Units) (l : Link) (f : PortOut → PortOut) : (updOut u l f).pendingMarks = u.pendingMarks := rfl
@[simp] theorem updOut_faults (u : Units) (l : Link) (f : PortOut → PortOut) : (updOut u l f).faults = u.faults := rfl
@[simp] theorem updOut_heldClears (u : Units) (l : Link) (f : PortOut → PortOut) : (updOut u l f).heldClears = u.heldClears := rfl
@[simp] theorem updOut_out (u : Units) (l : Link) (f : PortOut → PortOut) : (updOut u l f).out = u.out.set (linkIdx l) (f u.out[linkIdx l]) := rfl

/-! ## updImage -/

@[simp] theorem updImage_generation (u : Units) (f : Image → Image) : (updImage u f).generation = u.generation := rfl
@[simp] theorem updImage_claims (u : Units) (f : Image → Image) : (updImage u f).claims = u.claims := rfl
@[simp] theorem updImage_waitList (u : Units) (f : Image → Image) : (updImage u f).waitList = u.waitList := rfl
@[simp] theorem updImage_admissions (u : Units) (f : Image → Image) : (updImage u f).admissions = u.admissions := rfl
@[simp] theorem updImage_budgetQueue (u : Units) (f : Image → Image) : (updImage u f).budgetQueue = u.budgetQueue := rfl
@[simp] theorem updImage_overload (u : Units) (f : Image → Image) : (updImage u f).overload = u.overload := rfl
@[simp] theorem updImage_manifold (u : Units) (f : Image → Image) : (updImage u f).manifold = u.manifold := rfl
@[simp] theorem updImage_image (u : Units) (f : Image → Image) : (updImage u f).image = f u.image := rfl
@[simp] theorem updImage_chainEn (u : Units) (f : Image → Image) : (updImage u f).chainEn = u.chainEn := rfl
@[simp] theorem updImage_flight (u : Units) (f : Image → Image) : (updImage u f).flight = u.flight := rfl
@[simp] theorem updImage_changePending (u : Units) (f : Image → Image) : (updImage u f).changePending = u.changePending := rfl
@[simp] theorem updImage_frameStart (u : Units) (f : Image → Image) : (updImage u f).frameStart = u.frameStart := rfl
@[simp] theorem updImage_driveOn (u : Units) (f : Image → Image) : (updImage u f).driveOn = u.driveOn := rfl
@[simp] theorem updImage_rooms (u : Units) (f : Image → Image) : (updImage u f).rooms = u.rooms := rfl
@[simp] theorem updImage_jacks (u : Units) (f : Image → Image) : (updImage u f).jacks = u.jacks := rfl
@[simp] theorem updImage_awning (u : Units) (f : Image → Image) : (updImage u f).awning = u.awning := rfl
@[simp] theorem updImage_pendingMarks (u : Units) (f : Image → Image) : (updImage u f).pendingMarks = u.pendingMarks := rfl
@[simp] theorem updImage_faults (u : Units) (f : Image → Image) : (updImage u f).faults = u.faults := rfl
@[simp] theorem updImage_heldClears (u : Units) (f : Image → Image) : (updImage u f).heldClears = u.heldClears := rfl
@[simp] theorem updImage_out (u : Units) (f : Image → Image) : (updImage u f).out = u.out := rfl

/-! ## updManifold -/

@[simp] theorem updManifold_generation (u : Units) (f : Manifold → Manifold) : (updManifold u f).generation = u.generation := rfl
@[simp] theorem updManifold_claims (u : Units) (f : Manifold → Manifold) : (updManifold u f).claims = u.claims := rfl
@[simp] theorem updManifold_waitList (u : Units) (f : Manifold → Manifold) : (updManifold u f).waitList = u.waitList := rfl
@[simp] theorem updManifold_admissions (u : Units) (f : Manifold → Manifold) : (updManifold u f).admissions = u.admissions := rfl
@[simp] theorem updManifold_budgetQueue (u : Units) (f : Manifold → Manifold) : (updManifold u f).budgetQueue = u.budgetQueue := rfl
@[simp] theorem updManifold_overload (u : Units) (f : Manifold → Manifold) : (updManifold u f).overload = u.overload := rfl
@[simp] theorem updManifold_manifold (u : Units) (f : Manifold → Manifold) : (updManifold u f).manifold = f u.manifold := rfl
@[simp] theorem updManifold_image (u : Units) (f : Manifold → Manifold) : (updManifold u f).image = u.image := rfl
@[simp] theorem updManifold_chainEn (u : Units) (f : Manifold → Manifold) : (updManifold u f).chainEn = u.chainEn := rfl
@[simp] theorem updManifold_flight (u : Units) (f : Manifold → Manifold) : (updManifold u f).flight = u.flight := rfl
@[simp] theorem updManifold_changePending (u : Units) (f : Manifold → Manifold) : (updManifold u f).changePending = u.changePending := rfl
@[simp] theorem updManifold_frameStart (u : Units) (f : Manifold → Manifold) : (updManifold u f).frameStart = u.frameStart := rfl
@[simp] theorem updManifold_driveOn (u : Units) (f : Manifold → Manifold) : (updManifold u f).driveOn = u.driveOn := rfl
@[simp] theorem updManifold_rooms (u : Units) (f : Manifold → Manifold) : (updManifold u f).rooms = u.rooms := rfl
@[simp] theorem updManifold_jacks (u : Units) (f : Manifold → Manifold) : (updManifold u f).jacks = u.jacks := rfl
@[simp] theorem updManifold_awning (u : Units) (f : Manifold → Manifold) : (updManifold u f).awning = u.awning := rfl
@[simp] theorem updManifold_pendingMarks (u : Units) (f : Manifold → Manifold) : (updManifold u f).pendingMarks = u.pendingMarks := rfl
@[simp] theorem updManifold_faults (u : Units) (f : Manifold → Manifold) : (updManifold u f).faults = u.faults := rfl
@[simp] theorem updManifold_heldClears (u : Units) (f : Manifold → Manifold) : (updManifold u f).heldClears = u.heldClears := rfl
@[simp] theorem updManifold_out (u : Units) (f : Manifold → Manifold) : (updManifold u f).out = u.out := rfl

/-! ## updRoom -/

@[simp] theorem updRoom_generation (n : Fin 6) (f : Room → Room) (u : Units) : (updRoom n f u).generation = u.generation := rfl
@[simp] theorem updRoom_claims (n : Fin 6) (f : Room → Room) (u : Units) : (updRoom n f u).claims = u.claims := rfl
@[simp] theorem updRoom_waitList (n : Fin 6) (f : Room → Room) (u : Units) : (updRoom n f u).waitList = u.waitList := rfl
@[simp] theorem updRoom_admissions (n : Fin 6) (f : Room → Room) (u : Units) : (updRoom n f u).admissions = u.admissions := rfl
@[simp] theorem updRoom_budgetQueue (n : Fin 6) (f : Room → Room) (u : Units) : (updRoom n f u).budgetQueue = u.budgetQueue := rfl
@[simp] theorem updRoom_overload (n : Fin 6) (f : Room → Room) (u : Units) : (updRoom n f u).overload = u.overload := rfl
@[simp] theorem updRoom_manifold (n : Fin 6) (f : Room → Room) (u : Units) : (updRoom n f u).manifold = u.manifold := rfl
@[simp] theorem updRoom_image (n : Fin 6) (f : Room → Room) (u : Units) : (updRoom n f u).image = u.image := rfl
@[simp] theorem updRoom_chainEn (n : Fin 6) (f : Room → Room) (u : Units) : (updRoom n f u).chainEn = u.chainEn := rfl
@[simp] theorem updRoom_flight (n : Fin 6) (f : Room → Room) (u : Units) : (updRoom n f u).flight = u.flight := rfl
@[simp] theorem updRoom_changePending (n : Fin 6) (f : Room → Room) (u : Units) : (updRoom n f u).changePending = u.changePending := rfl
@[simp] theorem updRoom_frameStart (n : Fin 6) (f : Room → Room) (u : Units) : (updRoom n f u).frameStart = u.frameStart := rfl
@[simp] theorem updRoom_driveOn (n : Fin 6) (f : Room → Room) (u : Units) : (updRoom n f u).driveOn = u.driveOn := rfl
@[simp] theorem updRoom_rooms (n : Fin 6) (f : Room → Room) (u : Units) : (updRoom n f u).rooms = u.rooms.set n (f u.rooms[n]) := rfl
@[simp] theorem updRoom_jacks (n : Fin 6) (f : Room → Room) (u : Units) : (updRoom n f u).jacks = u.jacks := rfl
@[simp] theorem updRoom_awning (n : Fin 6) (f : Room → Room) (u : Units) : (updRoom n f u).awning = u.awning := rfl
@[simp] theorem updRoom_pendingMarks (n : Fin 6) (f : Room → Room) (u : Units) : (updRoom n f u).pendingMarks = u.pendingMarks := rfl
@[simp] theorem updRoom_faults (n : Fin 6) (f : Room → Room) (u : Units) : (updRoom n f u).faults = u.faults := rfl
@[simp] theorem updRoom_heldClears (n : Fin 6) (f : Room → Room) (u : Units) : (updRoom n f u).heldClears = u.heldClears := rfl
@[simp] theorem updRoom_out (n : Fin 6) (f : Room → Room) (u : Units) : (updRoom n f u).out = u.out := rfl

/-! ## updJacks -/

@[simp] theorem updJacks_generation (f : Jacks → Jacks) (u : Units) : (updJacks f u).generation = u.generation := rfl
@[simp] theorem updJacks_claims (f : Jacks → Jacks) (u : Units) : (updJacks f u).claims = u.claims := rfl
@[simp] theorem updJacks_waitList (f : Jacks → Jacks) (u : Units) : (updJacks f u).waitList = u.waitList := rfl
@[simp] theorem updJacks_admissions (f : Jacks → Jacks) (u : Units) : (updJacks f u).admissions = u.admissions := rfl
@[simp] theorem updJacks_budgetQueue (f : Jacks → Jacks) (u : Units) : (updJacks f u).budgetQueue = u.budgetQueue := rfl
@[simp] theorem updJacks_overload (f : Jacks → Jacks) (u : Units) : (updJacks f u).overload = u.overload := rfl
@[simp] theorem updJacks_manifold (f : Jacks → Jacks) (u : Units) : (updJacks f u).manifold = u.manifold := rfl
@[simp] theorem updJacks_image (f : Jacks → Jacks) (u : Units) : (updJacks f u).image = u.image := rfl
@[simp] theorem updJacks_chainEn (f : Jacks → Jacks) (u : Units) : (updJacks f u).chainEn = u.chainEn := rfl
@[simp] theorem updJacks_flight (f : Jacks → Jacks) (u : Units) : (updJacks f u).flight = u.flight := rfl
@[simp] theorem updJacks_changePending (f : Jacks → Jacks) (u : Units) : (updJacks f u).changePending = u.changePending := rfl
@[simp] theorem updJacks_frameStart (f : Jacks → Jacks) (u : Units) : (updJacks f u).frameStart = u.frameStart := rfl
@[simp] theorem updJacks_driveOn (f : Jacks → Jacks) (u : Units) : (updJacks f u).driveOn = u.driveOn := rfl
@[simp] theorem updJacks_rooms (f : Jacks → Jacks) (u : Units) : (updJacks f u).rooms = u.rooms := rfl
@[simp] theorem updJacks_jacks (f : Jacks → Jacks) (u : Units) : (updJacks f u).jacks = f u.jacks := rfl
@[simp] theorem updJacks_awning (f : Jacks → Jacks) (u : Units) : (updJacks f u).awning = u.awning := rfl
@[simp] theorem updJacks_pendingMarks (f : Jacks → Jacks) (u : Units) : (updJacks f u).pendingMarks = u.pendingMarks := rfl
@[simp] theorem updJacks_faults (f : Jacks → Jacks) (u : Units) : (updJacks f u).faults = u.faults := rfl
@[simp] theorem updJacks_heldClears (f : Jacks → Jacks) (u : Units) : (updJacks f u).heldClears = u.heldClears := rfl
@[simp] theorem updJacks_out (f : Jacks → Jacks) (u : Units) : (updJacks f u).out = u.out := rfl

/-! ## updAwning -/

@[simp] theorem updAwning_generation (f : Awning → Awning) (u : Units) : (updAwning f u).generation = u.generation := rfl
@[simp] theorem updAwning_claims (f : Awning → Awning) (u : Units) : (updAwning f u).claims = u.claims := rfl
@[simp] theorem updAwning_waitList (f : Awning → Awning) (u : Units) : (updAwning f u).waitList = u.waitList := rfl
@[simp] theorem updAwning_admissions (f : Awning → Awning) (u : Units) : (updAwning f u).admissions = u.admissions := rfl
@[simp] theorem updAwning_budgetQueue (f : Awning → Awning) (u : Units) : (updAwning f u).budgetQueue = u.budgetQueue := rfl
@[simp] theorem updAwning_overload (f : Awning → Awning) (u : Units) : (updAwning f u).overload = u.overload := rfl
@[simp] theorem updAwning_manifold (f : Awning → Awning) (u : Units) : (updAwning f u).manifold = u.manifold := rfl
@[simp] theorem updAwning_image (f : Awning → Awning) (u : Units) : (updAwning f u).image = u.image := rfl
@[simp] theorem updAwning_chainEn (f : Awning → Awning) (u : Units) : (updAwning f u).chainEn = u.chainEn := rfl
@[simp] theorem updAwning_flight (f : Awning → Awning) (u : Units) : (updAwning f u).flight = u.flight := rfl
@[simp] theorem updAwning_changePending (f : Awning → Awning) (u : Units) : (updAwning f u).changePending = u.changePending := rfl
@[simp] theorem updAwning_frameStart (f : Awning → Awning) (u : Units) : (updAwning f u).frameStart = u.frameStart := rfl
@[simp] theorem updAwning_driveOn (f : Awning → Awning) (u : Units) : (updAwning f u).driveOn = u.driveOn := rfl
@[simp] theorem updAwning_rooms (f : Awning → Awning) (u : Units) : (updAwning f u).rooms = u.rooms := rfl
@[simp] theorem updAwning_jacks (f : Awning → Awning) (u : Units) : (updAwning f u).jacks = u.jacks := rfl
@[simp] theorem updAwning_awning (f : Awning → Awning) (u : Units) : (updAwning f u).awning = f u.awning := rfl
@[simp] theorem updAwning_pendingMarks (f : Awning → Awning) (u : Units) : (updAwning f u).pendingMarks = u.pendingMarks := rfl
@[simp] theorem updAwning_faults (f : Awning → Awning) (u : Units) : (updAwning f u).faults = u.faults := rfl
@[simp] theorem updAwning_heldClears (f : Awning → Awning) (u : Units) : (updAwning f u).heldClears = u.heldClears := rfl
@[simp] theorem updAwning_out (f : Awning → Awning) (u : Units) : (updAwning f u).out = u.out := rfl

/-! ## setClaim -/

@[simp] theorem setClaim_generation (g : Group) (c : Option Claim) (u : Units) : (setClaim g c u).generation = u.generation := rfl
@[simp] theorem setClaim_claims (g : Group) (c : Option Claim) (u : Units) : (setClaim g c u).claims = u.claims.set (groupIdx g) c := rfl
@[simp] theorem setClaim_waitList (g : Group) (c : Option Claim) (u : Units) : (setClaim g c u).waitList = u.waitList := rfl
@[simp] theorem setClaim_admissions (g : Group) (c : Option Claim) (u : Units) : (setClaim g c u).admissions = u.admissions := rfl
@[simp] theorem setClaim_budgetQueue (g : Group) (c : Option Claim) (u : Units) : (setClaim g c u).budgetQueue = u.budgetQueue := rfl
@[simp] theorem setClaim_overload (g : Group) (c : Option Claim) (u : Units) : (setClaim g c u).overload = u.overload := rfl
@[simp] theorem setClaim_manifold (g : Group) (c : Option Claim) (u : Units) : (setClaim g c u).manifold = u.manifold := rfl
@[simp] theorem setClaim_image (g : Group) (c : Option Claim) (u : Units) : (setClaim g c u).image = u.image := rfl
@[simp] theorem setClaim_chainEn (g : Group) (c : Option Claim) (u : Units) : (setClaim g c u).chainEn = u.chainEn := rfl
@[simp] theorem setClaim_flight (g : Group) (c : Option Claim) (u : Units) : (setClaim g c u).flight = u.flight := rfl
@[simp] theorem setClaim_changePending (g : Group) (c : Option Claim) (u : Units) : (setClaim g c u).changePending = u.changePending := rfl
@[simp] theorem setClaim_frameStart (g : Group) (c : Option Claim) (u : Units) : (setClaim g c u).frameStart = u.frameStart := rfl
@[simp] theorem setClaim_driveOn (g : Group) (c : Option Claim) (u : Units) : (setClaim g c u).driveOn = u.driveOn := rfl
@[simp] theorem setClaim_rooms (g : Group) (c : Option Claim) (u : Units) : (setClaim g c u).rooms = u.rooms := rfl
@[simp] theorem setClaim_jacks (g : Group) (c : Option Claim) (u : Units) : (setClaim g c u).jacks = u.jacks := rfl
@[simp] theorem setClaim_awning (g : Group) (c : Option Claim) (u : Units) : (setClaim g c u).awning = u.awning := rfl
@[simp] theorem setClaim_pendingMarks (g : Group) (c : Option Claim) (u : Units) : (setClaim g c u).pendingMarks = u.pendingMarks := rfl
@[simp] theorem setClaim_faults (g : Group) (c : Option Claim) (u : Units) : (setClaim g c u).faults = u.faults := rfl
@[simp] theorem setClaim_heldClears (g : Group) (c : Option Claim) (u : Units) : (setClaim g c u).heldClears = u.heldClears := rfl
@[simp] theorem setClaim_out (g : Group) (c : Option Claim) (u : Units) : (setClaim g c u).out = u.out := rfl

/-! ## setFault -/

@[simp] theorem setFault_generation (s : Subject) (r : FaultRecord) (u : Units) : (setFault s r u).generation = u.generation := rfl
@[simp] theorem setFault_claims (s : Subject) (r : FaultRecord) (u : Units) : (setFault s r u).claims = u.claims := rfl
@[simp] theorem setFault_waitList (s : Subject) (r : FaultRecord) (u : Units) : (setFault s r u).waitList = u.waitList := rfl
@[simp] theorem setFault_admissions (s : Subject) (r : FaultRecord) (u : Units) : (setFault s r u).admissions = u.admissions := rfl
@[simp] theorem setFault_budgetQueue (s : Subject) (r : FaultRecord) (u : Units) : (setFault s r u).budgetQueue = u.budgetQueue := rfl
@[simp] theorem setFault_overload (s : Subject) (r : FaultRecord) (u : Units) : (setFault s r u).overload = u.overload := rfl
@[simp] theorem setFault_manifold (s : Subject) (r : FaultRecord) (u : Units) : (setFault s r u).manifold = u.manifold := rfl
@[simp] theorem setFault_image (s : Subject) (r : FaultRecord) (u : Units) : (setFault s r u).image = u.image := rfl
@[simp] theorem setFault_chainEn (s : Subject) (r : FaultRecord) (u : Units) : (setFault s r u).chainEn = u.chainEn := rfl
@[simp] theorem setFault_flight (s : Subject) (r : FaultRecord) (u : Units) : (setFault s r u).flight = u.flight := rfl
@[simp] theorem setFault_changePending (s : Subject) (r : FaultRecord) (u : Units) : (setFault s r u).changePending = u.changePending := rfl
@[simp] theorem setFault_frameStart (s : Subject) (r : FaultRecord) (u : Units) : (setFault s r u).frameStart = u.frameStart := rfl
@[simp] theorem setFault_driveOn (s : Subject) (r : FaultRecord) (u : Units) : (setFault s r u).driveOn = u.driveOn := rfl
@[simp] theorem setFault_rooms (s : Subject) (r : FaultRecord) (u : Units) : (setFault s r u).rooms = u.rooms := rfl
@[simp] theorem setFault_jacks (s : Subject) (r : FaultRecord) (u : Units) : (setFault s r u).jacks = u.jacks := rfl
@[simp] theorem setFault_awning (s : Subject) (r : FaultRecord) (u : Units) : (setFault s r u).awning = u.awning := rfl
@[simp] theorem setFault_pendingMarks (s : Subject) (r : FaultRecord) (u : Units) : (setFault s r u).pendingMarks = u.pendingMarks := rfl
@[simp] theorem setFault_faults (s : Subject) (r : FaultRecord) (u : Units) : (setFault s r u).faults = u.faults.set (subjectIdx s) r := rfl
@[simp] theorem setFault_heldClears (s : Subject) (r : FaultRecord) (u : Units) : (setFault s r u).heldClears = u.heldClears := rfl
@[simp] theorem setFault_out (s : Subject) (r : FaultRecord) (u : Units) : (setFault s r u).out = u.out := rfl

/-! ## setPendingMark -/

@[simp] theorem setPendingMark_generation (l : Line) (b : Bool) (u : Units) : (setPendingMark l b u).generation = u.generation := rfl
@[simp] theorem setPendingMark_claims (l : Line) (b : Bool) (u : Units) : (setPendingMark l b u).claims = u.claims := rfl
@[simp] theorem setPendingMark_waitList (l : Line) (b : Bool) (u : Units) : (setPendingMark l b u).waitList = u.waitList := rfl
@[simp] theorem setPendingMark_admissions (l : Line) (b : Bool) (u : Units) : (setPendingMark l b u).admissions = u.admissions := rfl
@[simp] theorem setPendingMark_budgetQueue (l : Line) (b : Bool) (u : Units) : (setPendingMark l b u).budgetQueue = u.budgetQueue := rfl
@[simp] theorem setPendingMark_overload (l : Line) (b : Bool) (u : Units) : (setPendingMark l b u).overload = u.overload := rfl
@[simp] theorem setPendingMark_manifold (l : Line) (b : Bool) (u : Units) : (setPendingMark l b u).manifold = u.manifold := rfl
@[simp] theorem setPendingMark_image (l : Line) (b : Bool) (u : Units) : (setPendingMark l b u).image = u.image := rfl
@[simp] theorem setPendingMark_chainEn (l : Line) (b : Bool) (u : Units) : (setPendingMark l b u).chainEn = u.chainEn := rfl
@[simp] theorem setPendingMark_flight (l : Line) (b : Bool) (u : Units) : (setPendingMark l b u).flight = u.flight := rfl
@[simp] theorem setPendingMark_changePending (l : Line) (b : Bool) (u : Units) : (setPendingMark l b u).changePending = u.changePending := rfl
@[simp] theorem setPendingMark_frameStart (l : Line) (b : Bool) (u : Units) : (setPendingMark l b u).frameStart = u.frameStart := rfl
@[simp] theorem setPendingMark_driveOn (l : Line) (b : Bool) (u : Units) : (setPendingMark l b u).driveOn = u.driveOn := rfl
@[simp] theorem setPendingMark_rooms (l : Line) (b : Bool) (u : Units) : (setPendingMark l b u).rooms = u.rooms := rfl
@[simp] theorem setPendingMark_jacks (l : Line) (b : Bool) (u : Units) : (setPendingMark l b u).jacks = u.jacks := rfl
@[simp] theorem setPendingMark_awning (l : Line) (b : Bool) (u : Units) : (setPendingMark l b u).awning = u.awning := rfl
@[simp] theorem setPendingMark_pendingMarks (l : Line) (b : Bool) (u : Units) : (setPendingMark l b u).pendingMarks = u.pendingMarks.set (lineIdx l) b := rfl
@[simp] theorem setPendingMark_faults (l : Line) (b : Bool) (u : Units) : (setPendingMark l b u).faults = u.faults := rfl
@[simp] theorem setPendingMark_heldClears (l : Line) (b : Bool) (u : Units) : (setPendingMark l b u).heldClears = u.heldClears := rfl
@[simp] theorem setPendingMark_out (l : Line) (b : Bool) (u : Units) : (setPendingMark l b u).out = u.out := rfl

/-! ## landFlight -/

@[simp] theorem landFlight_generation (u : Units) : (landFlight u).generation = u.generation := rfl
@[simp] theorem landFlight_claims (u : Units) : (landFlight u).claims = u.claims := rfl
@[simp] theorem landFlight_waitList (u : Units) : (landFlight u).waitList = u.waitList := rfl
@[simp] theorem landFlight_admissions (u : Units) : (landFlight u).admissions = u.admissions := rfl
@[simp] theorem landFlight_budgetQueue (u : Units) : (landFlight u).budgetQueue = u.budgetQueue := rfl
@[simp] theorem landFlight_overload (u : Units) : (landFlight u).overload = u.overload := rfl
@[simp] theorem landFlight_manifold (u : Units) : (landFlight u).manifold = u.manifold := rfl
@[simp] theorem landFlight_image (u : Units) : (landFlight u).image = u.image := rfl
@[simp] theorem landFlight_chainEn (u : Units) : (landFlight u).chainEn = u.chainEn := rfl
@[simp] theorem landFlight_flight (u : Units) : (landFlight u).flight = none := rfl
@[simp] theorem landFlight_changePending (u : Units) : (landFlight u).changePending = u.changePending := rfl
@[simp] theorem landFlight_frameStart (u : Units) : (landFlight u).frameStart = u.frameStart := rfl
@[simp] theorem landFlight_driveOn (u : Units) : (landFlight u).driveOn = u.driveOn := rfl
@[simp] theorem landFlight_rooms (u : Units) : (landFlight u).rooms = u.rooms := rfl
@[simp] theorem landFlight_jacks (u : Units) : (landFlight u).jacks = u.jacks := rfl
@[simp] theorem landFlight_awning (u : Units) : (landFlight u).awning = u.awning := rfl
@[simp] theorem landFlight_pendingMarks (u : Units) : (landFlight u).pendingMarks = u.pendingMarks := rfl
@[simp] theorem landFlight_faults (u : Units) : (landFlight u).faults = u.faults := rfl
@[simp] theorem landFlight_heldClears (u : Units) : (landFlight u).heldClears = u.heldClears := rfl
@[simp] theorem landFlight_out (u : Units) : (landFlight u).out = u.out := rfl

/-! ## updPort -/

@[simp] theorem updPort_phase (c : Setup) (l : Link) (f : PortIn → PortIn) : (updPort c l f).phase = c.phase := rfl
@[simp] theorem updPort_staging (c : Setup) (l : Link) (f : PortIn → PortIn) : (updPort c l f).staging = c.staging := rfl
@[simp] theorem updPort_owner (c : Setup) (l : Link) (f : PortIn → PortIn) : (updPort c l f).owner = c.owner := rfl
@[simp] theorem updPort_profile (c : Setup) (l : Link) (f : PortIn → PortIn) : (updPort c l f).profile = c.profile := rfl
@[simp] theorem updPort_parkSet (c : Setup) (l : Link) (f : PortIn → PortIn) : (updPort c l f).parkSet = c.parkSet := rfl
@[simp] theorem updPort_ignOn (c : Setup) (l : Link) (f : PortIn → PortIn) : (updPort c l f).ignOn = c.ignOn := rfl
@[simp] theorem updPort_wired (c : Setup) (l : Link) (f : PortIn → PortIn) : (updPort c l f).wired = c.wired := rfl
@[simp] theorem updPort_virt (c : Setup) (l : Link) (f : PortIn → PortIn) : (updPort c l f).virt = c.virt := rfl
@[simp] theorem updPort_ports (c : Setup) (l : Link) (f : PortIn → PortIn) : (updPort c l f).ports = c.ports.set (linkIdx l) (f c.ports[linkIdx l]) := rfl

end Sys2Proof.Laws
end

