-- ==== Sys2Proof/Tests/Slice0.lean ====
section
/-! SUPPORT. The model's own tests: the checks of WellFormed on ill-formed terms, the values the spec itself works out,
one step of each command family, and for every statement of Certificates/Slice0/Obligations.lean states that meet its
hypotheses. -/
namespace Sys2Proof.Tests
open Sys2Proof.Machine Sys2Proof.Safety
set_option Elab.async false

/-! ## Small states -/

/-- Whether a command answers a next state with a property. -/
def gives (i : Instr) (s : State) (p : State → Bool) : Bool :=
  match exec i s with
  | .next t => p t
  | _ => false

/-- The state a command answers, with the ports as they were before it. -/
def past (i : Instr) (s : State) : State :=
  match exec i s with
  | .next t => { t with c := { t.c with ports := s.c.ports }, u := { t.u with out := s.u.out } }
  | _ => s

/-- A small coach: ROOM0 ELECTRIC with a lock, ROOM1 HYDRAULIC, four jacks, an awning. -/
def coachProfile : Slots :=
  let st : Straps := { jacks6 := false, supply24 := false }
  let a := (initialSlots st).stage st (.room 0) [(1, 1), (2, 0), (4, 1), (5, 1000), (6, 100), (7, 20), (12, 0)]
  let b := (a.stage st (.room 1) [(1, 0), (2, 0), (5, 500), (12, 0)]).stage st .jacks [(2, 5000)]
  (b.stage st .awning [(1, 2000), (2, 100)]).committed

/-- Pins of a coach with everything stowed. -/
def stowedPins : ResetPins where
  inSwitchA := Vector.replicate 6 true
  inSwitchB := Vector.replicate 6 true
  pinEngaged := Vector.replicate 6 true
  jackStowed := Vector.replicate 6 true
  awningStowed := true

/-- The small coach in RUN, parked, everything stowed, nothing moving. -/
def stowed : State :=
  let s := State.powerOn stowedPins
  { s with
    c := { s.c with phase := .run, profile := some coachProfile, parkSet := true }
    u := { s.u with
      rooms := Vector.ofFn fun n => if n.val < 2 then { state := .stowed } else {}
      jacks := { state := .stowed }, awning := { state := .stowed } } }

/-- The coach with the master ML0 heard. -/
def linkedCoach : State :=
  { stowed with c := withIn stowed.c .ml0 { linked := true, silence := some 3000 } }

/-- The coach with its jacks grounded. -/
def grounded : State := { stowed with u := { stowed.u with jacks := { state := .grounded } } }

/-- The coach with the awning out. -/
def awningOut : State :=
  { stowed with
    m := { stowed.m with awningStowed := false, counterAw := { count := 1000, valid := true } }
    u := { stowed.u with awning := { state := .out } } }

/-- The coach with ROOM0 moving out under a HOLD of ML0, withdrawing its pin. -/
def roomMoving : State := past (.roomMove .ml0 1 (.room 0) .outward .hold none none) linkedCoach
/-- The coach with a jack operation in its SEEK turn. -/
def jacksMoving : State := past (.jackSeek .ml0 1 .full none) stowed
/-- The coach with the awning moving out. -/
def awningMoving : State := past (.awningMove .ml0 1 .outward .full none none) stowed

/-- A record that is CLEARABLE. -/
def clearableRecord : FaultRecord :=
  { state := .clearable, codes := [(.stall, false)], firstStamp := some 0, lastStamp := some 0, count := 1 }
/-- The coach with a fault record of a subject replaced. -/
def withRecord (k : Subject) (r : FaultRecord) (s : State) : State :=
  { s with u := { s.u with faults := s.u.faults.set (subjectIdx k) r } }
/-- A desk. -/
abbrev desk (s : State) : Desk := { c := s.c, u := s.u }

/-! ## WellFormed refuses each kind of ill-formed term -/

theorem test_wf_group_set : Instr.wf (.claim .ml0 1 [.jacks, .room 0] false none) = false := by decide
theorem test_wf_group_set_twice : Instr.wf (.release .ml0 1 [.room 0, .room 0]) = false := by decide
theorem test_wf_jog_set : Instr.wf (.jackJog .ml0 1 [1, 0] .down .hold none) = false := by decide
theorem test_wf_target : Instr.wf (.roomMove .ml0 1 (.room 0) .outward .full (some 32768) none) = false := by decide
theorem test_wf_target_low : Instr.wf (.roomMove .ml0 1 (.room 0) .outward .full (some (-32769)) none) = false := by
  decide
theorem test_wf_percent : Instr.wf (.awningMove .ml0 1 .outward .full (some 65536) none) = false := by decide
theorem test_wf_stage_value : Instr.wf (.profileStage .ml0 1 .general [(0, 2147483648)]) = false := by decide
theorem test_wf_stage_index : Instr.wf (.profileStage .ml0 1 .general [(256, 0)]) = false := by decide
theorem test_wf_stage_length : Instr.wf (.profileStage .ml0 1 .general (List.replicate 12 (0, 0))) = false := by decide
theorem test_wf_attention : Instr.wf (.attentionSet .ml0 1 256) = false := by decide
theorem test_wf_selection : Instr.wf (.linesSet .ml0 1 (List.replicate 29 (.virtual 0, true))) = false := by decide
theorem test_wf_debounce : Instr.wf (.mapWrite .ml0 1 (.wired 0) [.debounce 65536]) = false := by decide
theorem test_wf_map_length : Instr.wf (.mapWrite .ml0 1 (.wired 0) (List.replicate 28 (.mask .masked))) = false := by
  decide
theorem test_wf_malformed : Request.wf (.malformed 0) = false := by decide
theorem test_wf_unnamed : Request.wf (.unnamed 0) = false := by decide
theorem test_wf_payload : Instr.wf (.validFrameReceipt .ml0 1 1 (List.replicate 57 0)) = false := by decide
theorem test_wf_duty : Instr.wf (.echoReceived
    { latched := { awningMotor := { dir := .outward, duty := 101 } }, trips := [], boards := [] }) = false := by
  decide +kernel
theorem test_wf_trips : Instr.wf (.echoReceived { latched := {}, trips := [3, 3], boards := [] }) = false := by
  decide +kernel
theorem test_wf_boards : Instr.wf (.echoReceived { latched := {}, trips := [], boards := [
    { hot := false, channels := [0] }, { hot := true, channels := [0] }] }) = false := by decide +kernel
theorem test_wf_well_formed : Instr.wf (.claim .ml2 255 [.room 0, .awning] true (some 7)) = true
    ∧ Instr.wf (.validFrameReceipt .ml0 255 0 (List.replicate 56 0)) = true
    ∧ Instr.wf (.profileStage .ml1 0 .timing (List.replicate 11 (255, -2147483648))) = true := by decide

/-! ## Values the spec works out -/

/-- The check value of the CRC (R187): of the nine characters 1 to 9. -/
theorem test_crc_check_value :
    crc16 [0x31, 0x32, 0x33, 0x34, 0x35, 0x36, 0x37, 0x38, 0x39] = 0x29B1#16 := by decide +kernel
/-- R45: 11.50 V gives 75.0 A, 12.00 V gives 128.5 A, V_floor gives 0, V_derate the rated limit. -/
theorem test_limit : budgetLimit 1500 1220 1080 1150 = 750 ∧ budgetLimit 1500 1220 1080 1200 = 1285
    ∧ budgetLimit 1500 1220 1080 1080 = 0 ∧ budgetLimit 1500 1220 1080 1220 = 1500 := by decide
/-- R88: the ramp starts at 20 and is 100 from 500 ms on. -/
theorem test_ramp : rampDuty 0 0 = 20 ∧ rampDuty 0 250 = 60 ∧ rampDuty 0 499 = 99 ∧ rampDuty 0 500 = 100 := by
  decide
/-- R22: deadlines across the wrap of coach time. -/
theorem test_wrap : reached 0xFFFFFFF0 5 = true ∧ reached 5 0xFFFFFFF0 = false ∧ elapsed 0xFFFFFFFE 8 10 = true := by
  decide
/-- R148: the speed of a period, held at 200, and 0 beyond 2000 ms. -/
theorem test_wind_speed : periodSpeed 2500 100 = 25 ∧ periodSpeed 2500 5 = 200 ∧ periodSpeed 2500 2000 = 1
    ∧ periodSpeed 2500 2001 = 0 := by decide
/-- The small coach's profile passes the commit checks (R7). -/
theorem test_coach_profile : firstOffence stowed.m.straps coachProfile = none := by decide +kernel
theorem test_decode_none : decodeTableWord 0 0 = none ∧ decodeTableWord 32 0xFFFFFFFF = none := by decide

/-! ## One step of each command family -/

/-- ROOM0 in a retract with end A in a sync hold, both ends off their switches. -/
def heldRetract : State :=
  let motion : RoomMotion := { requester := .wl, dir := .inward, mode := .full, target := none, hold := .none
                               route := .leastAttention, step := .drive }
  let sw : RoomSwitches := { withdrawn := true }
  { stowed with
    m := { stowed.m with now := 600, roomSw := stowed.m.roomSw.set 0 sw
                         counterA := stowed.m.counterA.set 0 { count := 500, valid := true } }
    u := { stowed.u with
      rooms := stowed.u.rooms.set 0 { state := .retracting, motion := some motion, syncHold := some .a }
      image := { motorA := (Vector.replicate 6 {}).set 0 { dir := .inward }
                 motorB := (Vector.replicate 6 {}).set 0 { dir := .inward, duty := 100 } } } }

/-- R90: when end B reaches its in-switch the hold of end A is cleared and end A runs on at its shaped duty (log 48). -/
theorem test_sync_hold_cleared : gives (.inSwitchChange 0 .b true) heldRetract (fun t =>
    t.u.image.motorB[0] == {} && t.u.image.motorA[0] == { dir := .inward, duty := 100 }
      && t.u.rooms[0].syncHold == none) = true := by decide +kernel

theorem test_reset_xrst : gives (.powerOnReset stowedPins) stowed (fun t => t.c.phase == .config) = true
    ∧ gives (.xrst stowedPins) { stowed with m := { stowed.m with now := 9, heat := 5 } }
      (fun t => t.m.now == 9 && t.m.heat == 5 && t.c.phase == .config) = true := by decide +kernel
theorem test_ping : gives (.ping .ml0 7) State.reset (fun t => t.c.ports[0].sending
    == some (frameBytes 0x81 7 [0, 0, 1, 0, 0, 0, 0, 0, 0, 0, 0, 0])) = true := by decide +kernel
theorem test_frame_byte : gives (.byteReceived .ml0 0xC3) State.reset
    (fun t => t.c.ports[0].part == some { bytes := [], last := 0 }) = true := by decide +kernel
theorem test_profile_commit : gives (.profileCommit .ml0 1)
    { State.reset with c := { State.reset.c with staging := coachProfile } } (fun t => t.c.phase == .run) = true := by
  decide +kernel
theorem test_profile_commit_empty : gives (.profileCommit .ml0 1)
    { State.reset with c := { State.reset.c with owner := some .ml0 } }
    (fun t => t.c.phase == .config && t.c.owner == none) = true := by decide +kernel
theorem test_claim : gives (.claim .ml1 1 [.room 0, .jacks] false none) stowed
    (fun t => holderOf t.u (.room 0) == some (.link .ml1) && holderOf t.u .jacks == some (.link .ml1)) = true := by
  decide +kernel
theorem test_room_move : gives (.roomMove .ml0 1 (.room 0) .outward .full none none) stowed
    (fun t => t.u.rooms[0].state == .unpinning && t.u.image.pin[0] && t.u.flight.isSome) = true := by decide +kernel
theorem test_hydraulic_room_starts_the_pump : gives (.roomMove .ml0 1 (.room 1) .outward .full none none) stowed
    (fun t => t.u.image.pump && t.u.manifold.user == some (.room 1) && t.u.image.roomValve[1] == .extend) = true := by
  decide +kernel
theorem test_jack_seek_switches_the_diverter : gives (.jackSeek .ml0 1 .full none) stowed
    (fun t => t.u.manifold.state == .switching && t.u.image.diverter == .jack) = true := by decide +kernel
theorem test_awning_move : gives (.awningMove .ml0 1 .outward .full none none) stowed
    (fun t => t.u.image.awningMotor == { dir := .outward, duty := 20 } && t.u.awning.state == .extending) = true := by
  decide +kernel
theorem test_estop : gives .estopAsserted awningMoving
    (fun t => t.u.image == {} && t.u.chainEn == false && coachActive t.u && t.u.awning.motion.isNone) = true := by
  decide +kernel
theorem test_vbat : gives (.vbatSample 1150) State.reset (fun t => t.m.bLim == 750) = true := by decide +kernel
theorem test_frame_then_echo : gives .periodicFrameStart { stowed with m := { stowed.m with now := 10 } }
      (fun t => t.u.flight.isSome) = true
    ∧ gives (.echoReceived { latched := {}, trips := [], boards := [] })
      { stowed with u := { stowed.u with
        flight := some { frame := {}, start := 0, confirms := Vector.replicate 9 true } } }
      (fun t => t.u.chainEn && t.u.flight.isSome) = true := by decide +kernel
theorem test_pulse_counts : gives (.axisPulse .awning) awningMoving
    (fun t => t.m.counterAw == { count := 1, valid := true, lastPulse := some 0 }) = true := by decide +kernel
theorem test_virtual_line : gives (.linesSet .ml0 1 [(.virtual 3, true)]) stowed
    (fun t => t.c.virt[3].value && t.c.virt[3].deadline == some 300) = true := by decide +kernel
theorem test_heat : gives .heatRise
    { stowed with m := { stowed.m with now := 100 }, u := { stowed.u with image := { pump := true } } }
    (fun t => t.m.heat == 1 && t.u.manifold.heatStart == 100) = true := by decide +kernel

/-! ## States that meet the hypotheses of the statements: helpers -/

/-- The state at another coach time. -/
def atTime (t : CoachTime) (s : State) : State := { s with m := { s.m with now := t } }
/-- The state with one port's outgoing part replaced. -/
def sends (l : Link) (o : PortOut) (s : State) : State := { s with u := withOut s.u l o }
/-- The state with ROOM0 under a motion record. -/
def withRoom (k : RoomMotion) (s : State) : State :=
  { s with u := { s.u with rooms := s.u.rooms.set 0 { s.u.rooms[0] with motion := some k } } }
/-- The state with the jack set under a motion record. -/
def withJacks (k : JackMotion) (s : State) : State :=
  { s with u := { s.u with jacks := { s.u.jacks with motion := some k } } }
/-- The state with a claim of a link on a group. -/
def withClaim (g : Group) (c : Claim) (s : State) : State :=
  { s with u := { s.u with claims := s.u.claims.set (groupIdx g) (some c) } }
/-- A record of a room motion of ML0. -/
def roomRecord : RoomMotion where
  requester := .link .ml0
  dir := .outward
  mode := .hold
  target := none
  hold := .deadline 300
  route := .links false false false
  step := .driveWait
  pinDeadline := some 2000
  dwellEnd := some 500
/-- A record of a jack operation of ML0 in a step with a deadline. -/
def jackRecord (st : JackStep) (d : CoachTime) : JackMotion where
  requester := .link .ml0
  kind := .auto
  mode := .hold
  hold := .deadline 300
  route := .links false false false
  step := st
  deadline := some d
/-- A record of an awning motion of ML0. -/
def awningRecord : AwningMotion where
  requester := .link .ml0
  dir := .outward
  mode := .hold
  target := none
  hold := .deadline 300
  route := .links false false false
  step := .dwell
  dwellEnd := some 500
/-- The coach with a motion of the awning. -/
def awningHeld : State :=
  { awningOut with u := { awningOut.u with awning := { state := .extending, motion := some awningRecord } } }
/-- A claim of a link. -/
def claimBy (l : Link) : Claim := { holder := .link l, kind := .explicit, stamp := 0 }
/-- A wait entry of ML0 for the jacks, asked at coach time 0. -/
def entry : WaitEntry where
  link := .ml0
  tag := 1
  missing := [.jacks]
  asked := [.jacks]
  arrival := 0
  deadline := 30000
/-- The coach with that entry waiting for a group ML1 holds. -/
def waiting : State :=
  let s := withClaim .jacks (claimBy .ml1) stowed
  { s with u := { s.u with waitList := [entry] } }

/-- A stowed coach whose all-off frame is in flight. -/
def inFlight : State :=
  { stowed with u := { stowed.u with flight := some { frame := {}, start := 0, confirms := Vector.replicate 9 true } } }
/-- A port with a partial frame of the given bytes, received at coach time 0. -/
def part (bytes : List Byte) : State := withPort State.reset .ml0 { part := some { bytes := bytes, last := 0 } }

/-- The awning driven since coach time 0. -/
def awningDriven : State :=
  { awningHeld with u := { awningHeld.u with driveOn := awningHeld.u.driveOn.set (axisIdx .awning) (some 0) } }

theorem vacuous {α : Type} {o : Option α} {P : α → Prop} (h : o = none) : ∀ a, o = some a → P a := by
  intro a e; rw [h] at e; cases e

theorem only {α : Type} {o : Option α} {b : α} {P : α → Prop} (h : o = some b) (k : P b) : ∀ a, o = some a → P a := by
  intro a e; rw [h] at e; cases e; exact k

/-- No request waits at any port. -/
def portsQuiet (c : Setup) : Bool := c.ports.all fun p => p.rx.isEmpty

theorem noneWait {c : Setup} (h : portsQuiet c = true) : noRequestWaits c := by
  intro l
  have k := (Vector.all_eq_true.1 h) (linkIdx l).val (linkIdx l).isLt
  exact List.isEmpty_iff.1 k

/-- Whether a port with nothing waiting would take a request, with nothing else left to do. -/
def wouldTake (s : State) (l : Link) (q : QueuedRequest) : Bool :=
  portsQuiet s.c && (s.u.out.all fun o => o.line.isEmpty && o.notices.isEmpty) && s.u.heldClears.isEmpty
    && decide (finish s.ctx s.u false { m := s.m, c := afterReceipt s l q } s.u = s.u)

theorem ready_of {s : State} {l : Link} {q : QueuedRequest} (h : wouldTake s l q = true) : readyFor s l q := by
  unfold wouldTake at h
  rw [Bool.and_eq_true, Bool.and_eq_true, Bool.and_eq_true] at h
  obtain ⟨⟨⟨h1, h2⟩, h3⟩, h4⟩ := h
  have out : ∀ k : Link, (s.u.out[linkIdx k]).line = [] ∧ (s.u.out[linkIdx k]).notices = [] := by
    intro k
    have e := (Vector.all_eq_true.1 h2) (linkIdx k).val (linkIdx k).isLt
    rw [Bool.and_eq_true] at e
    exact ⟨List.isEmpty_iff.1 e.1, List.isEmpty_iff.1 e.2⟩
  refine ⟨fun k _ => out k, noneWait h1, (out l).1, ?_, ?_⟩
  · rw [List.isEmpty_iff.1 h3]; exact Nat.zero_lt_succ 3
  · unfold unitsSettled; exact of_decide_eq_true h4

theorem notStaged {c : Setup} {l : Link} (h : c.owner = none) : ¬ stagedByAnother c l := by
  rintro ⟨o, e, _⟩; rw [h] at e; cases e

theorem stagedBy {c : Setup} {k l : Link} (h : c.owner = some k) (e : k ≠ l) : stagedByAnother c l := ⟨k, h, e⟩

/-! ## States that meet the hypotheses of the statements: machine, resets, receivers -/

theorem test_met_step : step { State.reset with pending := [.spdPulse, .estopAsserted] }
    = exec .spdPulse { State.reset with pending := [.estopAsserted] } := rfl

theorem test_met_parts :
    (measures (.ping .ml0 1) = false ∧ ∃ t, exec (.ping .ml0 1) State.reset = .next t)
    ∧ (unitsOnly .estopAsserted = true ∧ noRequestWaits State.reset.c
      ∧ ∃ t, exec .estopAsserted State.reset = .next t) :=
  ⟨⟨rfl, _, rfl⟩, rfl, noneWait (by decide +kernel), _, rfl⟩

/-- Timers not yet due, and none running: the silence deadline, a partial frame's, a virtual line's, a pin's, a dwell's,
a jack step's. -/
theorem test_met_early_timers :
    (∀ d ∈ (inPort linkedCoach .ml0).silence, reached d linkedCoach.m.now = false)
    ∧ (∀ d ∈ (inPort stowed .ml0).silence, reached d stowed.m.now = false)
    ∧ (∀ p ∈ (inPort (part []) .ml0).part, elapsed p.last (atTime 4 (part [])).m.now 5 = false)
    ∧ (∀ d ∈ (stowed.c.virt[0]).deadline, reached d stowed.m.now = false)
    ∧ (∀ m ∈ (withRoom roomRecord stowed).u.rooms[0].motion, ∀ d ∈ m.pinDeadline, reached d stowed.m.now = false)
    ∧ (∀ m ∈ (withRoom roomRecord stowed).u.rooms[0].motion, ∀ d ∈ m.dwellEnd, reached d stowed.m.now = false)
    ∧ (∀ m ∈ (withJacks (jackRecord .seek 1) stowed).u.jacks.motion, ∀ d ∈ m.deadline, reached d stowed.m.now = false) :=
  ⟨only (b := 3000) rfl (by decide +kernel), vacuous rfl, only (b := { bytes := [], last := 0 }) rfl (by decide +kernel),
    vacuous (by decide +kernel),
    only (b := roomRecord) (by decide +kernel) (only (b := 2000) rfl (by decide +kernel)),
    only (b := roomRecord) (by decide +kernel) (only (b := 500) rfl (by decide +kernel)),
    only (b := jackRecord .seek 1) (by decide +kernel) (only (b := 1) rfl (by decide +kernel))⟩

/-- The same for the awning's dwell, a hold, the diverter, the heat intervals, the frame and its echo, the two windows,
a stall, and a wait entry at its deadline and its preemption time. -/
theorem test_met_early_units :
    (∀ d ∈ awningDwellEnd awningHeld.u, reached d awningHeld.m.now = false)
    ∧ (∀ d, groupHold awningHeld.u .awning = .deadline d → reached d awningHeld.m.now = false)
    ∧ (jacksMoving.u.manifold.state = .switching
      ∧ ∀ d ∈ jacksMoving.u.manifold.switchingEnd, reached d jacksMoving.m.now = false)
    ∧ (elapsed stowed.u.manifold.heatStart (atTime 99 stowed).m.now 100 = false
      ∧ elapsed stowed.u.manifold.heatStart (atTime 299 stowed).m.now 300 = false)
    ∧ (elapsed stowed.u.frameStart (atTime 9 stowed).m.now 10 = false
      ∧ ∀ f ∈ inFlight.u.flight, elapsed f.start (atTime 9 inFlight).m.now 10 = false)
    ∧ (elapsed stowed.m.windowStart (atTime 999 stowed).m.now 1000 = false
      ∧ elapsed stowed.m.wind.secondStart (atTime 999 stowed).m.now 1000 = false)
    ∧ (∀ t0 ∈ awningDriven.u.driveOn[axisIdx .awning],
        reached (stallMoment (atTime 899 awningDriven) .awning t0) (atTime 899 awningDriven).m.now = false)
    ∧ (∀ e ∈ waiting.u.waitList[0]?, reached e.deadline waiting.m.now = false)
    ∧ ∀ e ∈ waiting.u.waitList[0]?, waiting.ctx.timing 3 = 0 ∨ e.tested = true
      ∨ reached (e.arrival + BitVec.ofNat 32 (waiting.ctx.timing 3 * 1000)) waiting.m.now = false := by
  refine ⟨only (b := 500) (by decide +kernel) (by decide +kernel), ?_,
    ⟨by decide +kernel, only (b := 300) (by decide +kernel) (by decide +kernel)⟩, by decide +kernel,
    ⟨by decide +kernel, only (b := { frame := {}, start := 0, confirms := Vector.replicate 9 true }) rfl
      (by decide +kernel)⟩, by decide +kernel, only (b := 0) (by decide +kernel) (by decide +kernel),
    only (b := entry) (by decide +kernel) (by decide +kernel),
    only (b := entry) (by decide +kernel) (.inr (.inr (by decide +kernel)))⟩
  intro d e
  have h : groupHold awningHeld.u .awning = .deadline 300 := by decide +kernel
  rw [h] at e
  cases e
  decide +kernel

theorem test_met_invariants :
    (∃ t, portsSettled State.reset ∧ step { State.reset with pending := [.estopAsserted] } = .next t)
    ∧ (∃ t, chainLowWhileActive State.reset ∧ step { State.reset with pending := [.estopAsserted] } = .next t)
    ∧ (∃ t, queuesBounded State.reset ∧ step { State.reset with pending := [.ping .ml0 1] } = .next t)
    ∧ ∃ t, measuredInBounds State.reset.m ∧ step { State.reset with pending := [.anemometerPulse] } = .next t := by
  refine ⟨⟨_, ?_, rfl⟩, ⟨_, fun _ => rfl, rfl⟩, ⟨_, ?_, rfl⟩, ⟨_, ⟨?_, ?_⟩, rfl⟩⟩
  · intro l; cases l <;> exact fun _ => ⟨rfl, rfl⟩
  · intro l; cases l <;> exact ⟨Nat.zero_le _, Nat.zero_le _⟩
  · rintro (⟨n, e⟩ | j | _)
    · cases e <;> revert n <;> unfold countInRange <;> decide +kernel
    · revert j; unfold countInRange; decide +kernel
    · unfold countInRange; decide +kernel
  · refine ⟨?_, ?_, ?_, ?_, ?_, ?_, ?_, ?_⟩ <;> decide +kernel

theorem budgetWithin_of {x : Ctx} {u : Units} (h : u.admissions = []) (k : u.budgetQueue = [])
    (a : allocation x .awning ≤ reserve x) : budgetWithin x u := by
  unfold budgetWithin
  rw [h, k]
  exact ⟨List.nodup_nil, Nat.zero_le _, Nat.zero_le _, fun a m => (nomatch m), fun a m => (nomatch m), a⟩

theorem atRest_reset : atRest State.reset.u := by
  refine ⟨?_, rfl, rfl, rfl, rfl, rfl⟩
  rintro (n | _ | _)
  · revert n; decide +kernel
  · rfl
  · rfl

/-- Before the commit at rest, after it within the limit. -/
theorem test_met_budget_invariant :
    (∃ t, budgetSettled State.reset ∧ step { State.reset with pending := [.estopAsserted] } = .next t)
    ∧ ∃ t, budgetSettled stowed ∧ step { stowed with pending := [.vbatSample 0] } = .next t :=
  ⟨⟨_, atRest_reset, rfl⟩, ⟨_, budgetWithin_of rfl rfl (by decide +kernel), rfl⟩⟩

/-- An echo of an all-off frame. -/
def quietEcho : Echo := { latched := {}, trips := [], boards := [] }
/-- An echo that differs in the pump channel. -/
def otherEcho : Echo := { latched := { pump := true }, trips := [], boards := [] }

theorem test_met_chain_rises : inFlight.u.chainEn = false
    ∧ gives (.echoReceived quietEcho) inFlight (fun t => t.u.chainEn) = true := by decide +kernel

theorem test_met_receiver_errors :
    ((inPort (part []) .ml0).part = some { bytes := [], last := 0 } ∧ elapsed 0 (atTime 5 (part [])).m.now 5 = true)
    ∧ (inPort (part []) .ml0).part.isSome ∧ (inPort State.reset .ml0).part = none := by decide +kernel

/-- The receiver's cases: LEN 1 and 59 outside, 2 and 58 inside; a frame going on, and complete with a wrong CRC. -/
theorem test_met_bytes :
    ((inPort State.reset .ml0).part = none ∧ (0xC2#8 : Byte) ≠ 0xC3#8)
    ∧ ((inPort (part []) .ml0).part = some { bytes := [], last := 0 } ∧ (1#8).toNat < 2 ∧ 58 < (59#8).toNat)
    ∧ (2 ≤ (2#8).toNat ∧ (2#8).toNat ≤ 58 ∧ 2 ≤ (58#8).toNat ∧ (58#8).toNat ≤ 58)
    ∧ ((inPort (part [2, 1]) .ml0).part = some { bytes := 2#8 :: [1#8], last := 0 }
      ∧ [1#8].length + 2 < (2#8).toNat + 3)
    ∧ ((inPort (part [2, 1, 0, 0]) .ml0).part = some { bytes := 2#8 :: [1#8, 0#8, 0#8], last := 0 }
      ∧ [1#8, 0#8, 0#8].length + 2 = (2#8).toNat + 3)
    ∧ ∀ body : List Byte, 2#8 :: [1#8, 0#8, 0#8] ++ [0#8] ≠ body ++ crcBytes body := by
  refine ⟨by decide +kernel, by decide +kernel, by decide, by decide +kernel, by decide +kernel, fun body h => ?_⟩
  have hl := congrArg List.length h
  match body with
  | [a, b, c] =>
    have e1 : [2#8, 1#8, 0#8] = [a, b, c] := by
      have := congrArg (List.take 3) h
      simpa using this
    rw [← e1] at h
    revert h
    decide +kernel
  | [] | [_] | [_, _] => simp [crcBytes] at hl
  | _ :: _ :: _ :: _ :: _ => simp [crcBytes] at hl

theorem test_met_frame : (List.replicate 56 (0#8)).length ≤ 56 ∧ ([] : List Byte).length ≤ 56
    ∧ (inPort State.reset .ml2).part = none := by decide +kernel

/-- A port with n queued requests and k QUEUE_FULL answers waiting. -/
def queued (n k : Nat) : State :=
  sends .ml0 { line := List.replicate k { kind := 0x81, tag := 0, status := .queueFull, data := [] } }
    (withPort State.reset .ml0 { rx := List.replicate n { tag := 0, req := .ping } })

theorem test_met_receive_queue :
    ((queued 3 0).c.ports[linkIdx .ml0]).rx.length < 4
    ∧ (4 ≤ ((queued 4 3).c.ports[linkIdx .ml0]).rx.length
      ∧ (((queued 4 3).u.out[linkIdx .ml0]).line.filter fun r => r.status == .queueFull).length < 4)
    ∧ (4 ≤ ((queued 4 4).c.ports[linkIdx .ml0]).rx.length
      ∧ 4 ≤ (((queued 4 4).u.out[linkIdx .ml0]).line.filter fun r => r.status == .queueFull).length) :=
        by decide +kernel

theorem test_met_request_rows :
    (Instr.request? (.claim .ml0 1 [.room 0, .awning] true (some 7)) = some (.ml0, 1, .claim [.room 0,
      .awning] true (some 7))
      ∧ Instr.wf (.claim .ml0 1 [.room 0, .awning] true (some 7)) = true)
    ∧ Instr.wf (.roomMove .ml0 1 .awning .outward .full (some 32767) none) = true
    ∧ Instr.wf (.roomMove .ml0 1 (.room 5) .outward .full (some (-32768)) none) = true
    ∧ Instr.wf (.awningMove .ml0 1 .inward .hold (some 65535) none) = true
    ∧ Instr.wf (.linesSet .ml0 1 (List.replicate 28 (.wired 15, false))) = true
    ∧ Instr.wf (.mapWrite .ml0 1 (.virtual 7) [.debounce 65535, .action .notice, .route .leastAttention]) = true := by
  decide

/-! ## Requests -/

theorem test_met_ready :
    (Instr.request? (.ping .ml0 1) = some (.ml0, 1, .ping) ∧ readyFor State.reset .ml0 { tag := 1, req := .ping })
    ∧ readyFor linkedCoach .ml0 { tag := 1, req := .stopAll } :=
  ⟨⟨rfl, ready_of (by decide +kernel)⟩, ready_of (by decide +kernel)⟩

/-- Reads, PING, LINK_STATUS and ATTENTION_SET, in RUN and in CONFIG. -/
theorem test_met_accepted_reads :
    readyFor stowed .ml0 { tag := 1, req := .linkStatus }
      ∧ readyFor stowed .ml1 { tag := 1, req := .profileGet (.room 0) }
    ∧ readyFor stowed .ml2 { tag := 1, req := .postureGet }
      ∧ readyFor stowed .ml0 { tag := 1, req := .mapRead (.wired 0) }
    ∧ readyFor State.reset .ml0 { tag := 1, req := .faultGet none }
    ∧ (readyFor stowed .ml0 { tag := 1, req := .attentionSet 15 } ∧ 15 ≤ 15) :=
  ⟨ready_of (by decide +kernel), ready_of (by decide +kernel), ready_of (by decide +kernel),
    ready_of (by decide +kernel),
    ready_of (by decide +kernel), ready_of (by decide +kernel), Nat.le_refl _⟩

/-- A coach in CONFIG whose staging area ML0 owns. -/
def staging : State := { State.reset with c := { State.reset.c with owner := some .ml0, staging := coachProfile } }

theorem test_met_accepted_profile :
    ((deskAt State.reset .ml0).c.phase = .config ∧ ¬ stagedByAnother (deskAt State.reset .ml0).c .ml0
      ∧ stageListOk .timing [(0, 100)] = true
        ∧ readyFor State.reset .ml0 { tag := 1, req := .profileStage .timing [(0, 100)] })
    ∧ ((deskAt staging .ml0).c.phase = .config ∧ (deskAt staging .ml0).c.owner = some .ml0
      ∧ readyFor staging .ml0 { tag := 1, req := .profileAbandon })
    ∧ (¬ stagedByAnother (deskAt staging .ml0).c .ml0
      ∧ firstOffence staging.m.straps (deskAt staging .ml0).c.staging = none
      ∧ readyFor staging .ml0 { tag := 1, req := .profileCommit }) := by
  refine ⟨⟨rfl, notStaged rfl, by decide, ready_of (by decide +kernel)⟩,
    ⟨rfl, rfl, ready_of (by decide +kernel)⟩, ⟨?_, by decide +kernel, ready_of (by decide +kernel)⟩⟩
  rintro ⟨o, e, k⟩
  cases e
  exact k rfl

/-- The coach with a claim of ML0 on the jacks. -/
def jacksHeld : State := withClaim .jacks (claimBy .ml0) stowed
/-- The coach with a CLEARABLE record of ROOM0. -/
def clearableRoom : State := withRecord (.group (.room 0)) clearableRecord stowed

theorem test_met_accepted_effects :
    (∀ g ∈ [Group.room 0, .jacks, .awning],
      ((deskAt stowed .ml0).ctx stowed.m).present g = true ∧ claimOf stowed.u g = none)
    ∧ permit ((deskAt stowed .ml0).ctx stowed.m) stowed.u = true
    ∧ readyFor stowed .ml0 { tag := 1, req := .claim [.room 0, .jacks, .awning] false none }
    ∧ (holderOf jacksHeld.u .jacks = some (.link .ml0) ∧ readyFor jacksHeld .ml0 { tag := 1, req := .release [.jacks] })
    ∧ (((deskAt roomMoving .ml0).ctx roomMoving.m).present (.room 0) = true
      ∧ motionOwner roomMoving.u (.room 0) = some (.link .ml0, .hold)
      ∧ readyFor roomMoving .ml0 { tag := 1, req := .holdRefresh (.room 0) })
    ∧ ((deskAt stowed .ml0).c.phase = .run ∧ readyFor stowed .ml0 { tag := 1, req := .linesSet [(.virtual 7, true)] })
    ∧ (checkMapWrite stowed.m (.wired 3) [.debounce 50] (deskAt stowed .ml0) = none
      ∧ readyFor stowed .ml0 { tag := 1, req := .mapWrite (.wired 3) [.debounce 50] })
    ∧ ((faultOf clearableRoom.u (.group (.room 0))).state = .clearable ∧ claimOf clearableRoom.u (.room 0) = none
      ∧ readyFor clearableRoom .ml0 { tag := 1, req := .faultClear (.group (.room 0)) }) :=
  ⟨by decide +kernel, by decide +kernel, ready_of (by decide +kernel), ⟨by decide +kernel,
    ready_of (by decide +kernel)⟩,
    ⟨by decide +kernel, by decide +kernel, ready_of (by decide +kernel)⟩, ⟨rfl, ready_of (by decide +kernel)⟩,
    ⟨by decide +kernel, ready_of (by decide +kernel)⟩, by decide +kernel, by decide +kernel,
      ready_of (by decide +kernel)⟩

/-- Where a room motion starts: out to a target within the stroke, and in from PARTWAY. -/
theorem test_met_room_moves :
    let x := (deskAt stowed .ml0).ctx stowed.m
    checkMotion x stowed.u (.link .ml0) (.room 0) none = none ∧ roomInterlock x stowed.u 0 .outward = none
    ∧ (∀ p ∈ (some 1000 : Option Int), p ≤ x.roomStroke 0 ∧ x.roomPosition 0 < p) ∧ stowed.u.rooms[0].motion = none
    ∧ ¬ (Direction.outward = .outward ∧ stowed.u.rooms[0].state = .out)
    ∧ ¬ (Direction.outward = .inward ∧ stowed.u.rooms[0].state = .stowed)
    ∧ readyFor stowed .ml0 { tag := 1, req := .roomMove (.room 0) .outward .full (some 1000) none } :=
  ⟨by decide +kernel, by decide +kernel, by decide +kernel, by decide +kernel, by decide +kernel, by decide +kernel,
    ready_of (by decide +kernel)⟩

/-- Where each kind of jack operation starts. -/
theorem test_met_jack_operations :
    let open_ := fun (s : State) (k : JackAsk) (q : Request) =>
      badJackAsk s.ctx k = false ∧ checkMotion s.ctx s.u (.link .ml0) .jacks none = none
        ∧ jackInterlock s.ctx s.u k = none ∧ s.u.jacks.motion = none ∧ jackAlready s.ctx s.u k = false
        ∧ wouldTake s .ml0 { tag := 1, req := q } = true
    open_ stowed { kind := .auto, mode := .full } (.jackAuto .full none)
    ∧ open_ stowed { kind := .seek, mode := .hold } (.jackSeek .hold none)
    ∧ open_ stowed { kind := .jog, mode := .hold, set := [0, 3], dir := .down } (.jackJog [0, 3] .down .hold none)
    ∧ open_ grounded { kind := .retract, mode := .full } (.jackRetract .full none) := by decide +kernel

/-- Where an awning motion starts: out to 1 %, and in from OUT. -/
theorem test_met_awning_moves :
    let starts := fun (s : State) (d : Direction) (p : Option Nat) =>
      checkMotion s.ctx s.u (.link .ml0) .awning none = none ∧ awningInterlock s.ctx s.u d = none
      ∧ awningOwnCheck s.ctx s.u d p = none ∧ s.u.awning.motion = none
      ∧ ¬ (d = .outward ∧ s.u.awning.state = .out ∧ s.ctx.awningStroke ≤ s.m.counterAw.count)
      ∧ ¬ (d = .inward ∧ s.u.awning.state = .stowed)
      ∧ wouldTake s .ml0 { tag := 1, req := .awningMove d .full p none } = true
    starts stowed .outward (some 1) ∧ starts stowed .outward (some 100) ∧ starts awningOut .inward none := by
  decide +kernel

/-- Where each stop request stops a motion. -/
theorem test_met_stops_of_motions :
    (roomMoving.ctx.roomPresent 0 = true ∧ roomMoving.u.rooms[0].motion.isSome
      ∧ readyFor roomMoving .ml0 { tag := 1, req := .roomStop (.room 0) })
    ∧ (jacksMoving.c.phase = .run ∧ jacksMoving.u.jacks.motion.isSome
      ∧ readyFor jacksMoving .ml1 { tag := 1, req := .jackStop })
    ∧ (awningMoving.ctx.awningPresent = true ∧ awningMoving.u.awning.retract = none
      ∧ awningMoving.u.awning.motion.isSome ∧ readyFor awningMoving .ml2 { tag := 1, req := .awningStop })
    ∧ readyFor roomMoving .ml1 { tag := 1, req := .stopAll } :=
  ⟨⟨by decide +kernel, by decide +kernel, ready_of (by decide +kernel)⟩,
    ⟨by decide +kernel, by decide +kernel, ready_of (by decide +kernel)⟩,
    ⟨by decide +kernel, by decide +kernel, by decide +kernel, ready_of (by decide +kernel)⟩,
      ready_of (by decide +kernel)⟩

theorem test_met_refused :
    (decideRequest State.reset.m .ml0 1 (.roomMove (.room 0) .outward .full none none) (desk State.reset)).2
        = some (.notConfigured, [])
    ∧ (decideRequest stowed.m .ml0 1 (.roomMove (.room 5) .outward .full none none) (desk stowed)).2 = some (.absent,
      [5])
    ∧ 15 ≤ 15 ∧ 15 < 16 ∧ 24 ≤ (24#8 : Byte).toNat := by decide +kernel

/-! ## Transmitters, notices, silence -/

/-- A response of one segment. -/
def answer1 : Response := { kind := 0x81, tag := 0, status := .ok, data := [] }
/-- A notice. -/
def notice1 : Notice := { stamp := 0, body := .postureChanged }
/-- A port whose transmitter is busy. -/
def busy : State := withPort linkedCoach .ml0 { linked := true, silence := some 3000, sending := some [0] }

theorem test_met_transmitter :
    ((desk busy).c.ports[linkIdx .ml0]).sending.isSome
    ∧ (((desk stowed).c.ports[linkIdx .ml0]).sending = none
      ∧ ((desk (sends .ml0 { line := [answer1] } stowed)).u.out[linkIdx .ml0]).line = [answer1])
    ∧ (((desk (sends .ml0 { notices := [notice1] } stowed)).u.out[linkIdx .ml0]).notices = [notice1]
      ∧ ((desk (sends .ml0 { notices := [notice1] } stowed)).u.out[linkIdx .ml0]).line = []
      ∧ ((desk (sends .ml0 { notices := [notice1] } stowed)).u.out[linkIdx .ml0]).lostFlag = false)
    ∧ ((desk stowed).u.out[linkIdx .ml0]).line = [] ∧ ((desk stowed).u.out[linkIdx .ml0]).notices = [] := by
  decide +kernel

/-- A coach whose ML0 sends, with a one-segment response and a PING waiting behind it. -/
def answering : State :=
  sends .ml0 { line := [answer1] }
    (withPort linkedCoach .ml0 { linked := true, silence := some 3000, sending := some [0]
                                 rx := [{ tag := 2, req := .ping }] })

theorem test_met_frame_end : (inPort stowed .ml0).sending = none
    ∧ ((inPort busy .ml0).sending.isSome ∧ noRequestWaits busy.c
      ∧ unitsSettled busy (withPort busy .ml0 { inPort busy .ml0 with sending := none }).c)
    ∧ ((inPort answering .ml0).sending.isSome
      ∧ unitsSettled answering (withPort answering .ml0 { inPort answering .ml0 with sending := none }).c
      ∧ (∀ k, k ≠ Link.ml0 → (inPort answering k).rx = []
        ∧ ((inPort answering k).sending = none → (outPort answering k).line = [] ∧ (outPort answering k).notices = []))
      ∧ (answering.u.heldClears.filter fun h => h.link == .ml0).length < 4
      ∧ (inPort answering .ml0).rx = [{ tag := 2, req := .ping }] ∧ (outPort answering .ml0).line = [answer1]
      ∧ segmentCount answer1 ≤ answer1.next + 1) := by
  refine ⟨by decide +kernel, ⟨by decide +kernel, noneWait (by decide +kernel), by unfold unitsSettled; decide +kernel⟩,
    by decide +kernel, by unfold unitsSettled; decide +kernel, fun k h => ?_, by decide +kernel, by decide +kernel,
    by decide +kernel, by decide +kernel⟩
  cases k
  · exact absurd rfl h
  all_goals exact ⟨rfl, fun _ => ⟨rfl, rfl⟩⟩

/-- At its silence deadline ML0 holds ROOM0 and an active virtual line. -/
def falling : State :=
  let s := withClaim (.room 0) (claimBy .ml0) (atTime 3000 linkedCoach)
  { s with c := { s.c with virt := s.c.virt.set 7 { value := true, writer := some .ml0, deadline := some 3100 } } }

theorem test_met_silence : (∃ d ∈ (inPort falling .ml0).silence, reached d falling.m.now = true)
    ∧ (holderOf falling.u (.room 0) = some (.link .ml0) ∧ (falling.c.virt[(7 : Fin 8)]).value = true
      ∧ (falling.c.virt[(7 : Fin 8)]).writer = some .ml0 ∧ (falling.c.virt[(0 : Fin 8)]).value = false)
    ∧ ∀ k, k ≠ Link.ml0 → (inPort falling k).rx = [] := by
  refine ⟨⟨3000, rfl, by decide +kernel⟩, by decide +kernel, fun k _ => ?_⟩
  cases k <;> decide +kernel

theorem test_met_notices :
    stowed.ctx.linked .ml0 = false
    ∧ (linkedCoach.ctx.linked .ml0 = true
      ∧ notice1 ∈ ((sends .ml0 { notices := [notice1] } linkedCoach).u.out[linkIdx .ml0]).notices
      ∧ notice1.body = .postureChanged)
    ∧ ((NoticeBody.noticesLost 1) ≠ .postureChanged ∧ (linkedCoach.u.out[linkIdx .ml0]).notices.length < 16
      ∧ ((sends .ml0 { notices := List.replicate 15 notice1 } linkedCoach).u.out[linkIdx .ml0]).notices.length < 16)
    ∧ 16 ≤ ((sends .ml0 { notices := List.replicate 16 notice1 } linkedCoach).u.out[linkIdx .ml0]).notices.length
    ∧ ((linkedCoach.c.ports[linkIdx .ml0]).sending = none
      ∧ ((sends .ml0 { notices := [notice1], lostFlag := true, lostCount := 255 } linkedCoach).u.out[linkIdx .ml0]).lostFlag
        = true) := by decide +kernel

/-! ## Profile, posture, claims -/

theorem test_met_staging :
    ((desk stowed).c.phase = .run ∧ stagedByAnother (desk staging).c .ml1)
    ∧ ((desk State.reset).c.phase = .config ∧ ¬ stagedByAnother (desk State.reset).c .ml0
      ∧ stageListOk .timing [] = false ∧ stageListOk .timing [(5, 0)] = false ∧ stageListOk .timing [(4, 0)] = true)
    ∧ (stageListOk (.room 5) [(0, 0)] = true ∧ stageListOk .awning [(1, 100)] = true
      ∧ ((desk State.reset).c.staging.sectionSlots (.room 5)).length = fieldCount (.room 5)
      ∧ ((desk State.reset).c.staging.sectionSlots .awning).length = fieldCount .awning
      ∧ ((desk State.reset).c.staging.sectionSlots .timing).length = fieldCount .timing)
    ∧ (desk staging).c.owner = some .ml0 ∧ (desk State.reset).c.owner = none :=
  ⟨⟨rfl, stagedBy (k := .ml0) rfl (by decide)⟩, ⟨rfl, notStaged rfl, by decide, by decide, by decide⟩, by decide +kernel, rfl,
    rfl⟩

/-- A commit that finds a trip of ROOM1's valve in the last echo and a record of ROOM0 kept. -/
def commitTripped : State :=
  let s := withRecord (.group (.room 0)) clearableRecord staging
  { s with m := { s.m with lastEcho := some { latched := {}, trips := [9], boards := [] } } }

theorem test_met_commit :
    firstOffence State.reset.m.straps (desk State.reset).c.staging = some (.jacks, 2, .missing)
    ∧ ¬ stagedByAnother (desk State.reset).c .ml0
    ∧ firstOffence staging.m.straps (desk staging).c.staging = none
    ∧ ((desk staging).c.staging.slot .lines 0 = some ((0 : Fin 16).val : Int)
      ∧ (desk staging).c.staging.slot .lines 2 = some ((1 : Fin 16).val : Int)
      ∧ (desk staging).c.staging.slot .lines 2 ≠ some ((15 : Fin 16).val : Int))
    ∧ (atRest commitTripped.u ∧ (faultOf commitTripped.u (.group (.room 0))).state ≠ .empty
      ∧ (∃ e k, commitTripped.m.lastEcho = some e ∧ k ∈ e.trips ∧ channelOwner k = some (.room 1))
      ∧ (faultOf commitTripped.u (.group .jacks)).state = .empty) :=
  ⟨by decide +kernel, notStaged rfl, by decide +kernel, by decide +kernel,
    ⟨fun g => atRest_reset.1 g, rfl, rfl, rfl, rfl, rfl⟩, by decide +kernel, ⟨_, 9, rfl, by decide, by decide +kernel⟩,
    by decide +kernel⟩

/-- A permit that holds, that does not, and that a command takes away; a posture record unchanged and changed. -/
theorem test_met_posture :
    (permit stowed.ctx stowed.u = true ∧ permit State.reset.ctx State.reset.u = false
      ∧ retractPermit stowed.ctx stowed.u = true)
    ∧ postureView stowed.ctx stowed.u = postureView linkedCoach.ctx linkedCoach.u
    ∧ postureView stowed.ctx stowed.u ≠ postureView grounded.ctx grounded.u
    ∧ (plainCommand .estopAsserted = true ∧ noRequestWaits awningMoving.c
      ∧ permit awningMoving.ctx awningMoving.u = true
      ∧ gives .estopAsserted awningMoving (fun t => !permit t.ctx t.u) = true)
    ∧ (Instr.request? (.postureGet .ml2 1) = some (.ml2, 1, .postureGet)
      ∧ readyFor stowed .ml2 { tag := 1, req := .postureGet }) :=
  ⟨by decide +kernel, by decide +kernel, by decide +kernel,
    ⟨rfl, noneWait (by decide +kernel), by decide +kernel, by decide +kernel⟩, rfl, ready_of (by decide +kernel)⟩

/-- The checks of R17 in turn: CONFIG, absent, permit, COACH record, own record, holder, generation, none. -/
theorem test_met_motion_checks :
    State.reset.c.phase = .config ∧ (stowed.c.phase = .run ∧ stowed.ctx.present (.room 2) = false)
    ∧ (stowed.ctx.present (.room 1) = true
      ∧ permit { stowed.ctx with c := { stowed.c with parkSet := false } } stowed.u = false
      ∧ permit stowed.ctx stowed.u = true)
    ∧ (permit stowed.ctx (withRecord .coach clearableRecord stowed).u = true
      ∧ (faultOf (withRecord .coach clearableRecord stowed).u .coach).state ≠ .empty)
    ∧ (faultOf clearableRoom.u (.group (.room 0))).state ≠ .empty ∧ (faultOf clearableRoom.u .coach).state = .empty
    ∧ (claimOf jacksHeld.u .jacks = some (claimBy .ml0) ∧ (claimBy .ml0).holder ≠ .link .ml1)
    ∧ (claimOf stowed.u .jacks = none ∧ (1#32) ≠ stowed.u.generation) := by decide +kernel

/-- The checks of a CLAIM: a bad set, CONFIG, an absent group before a present one, no permit, a group of another with
and without waiting, two entries waiting, a stale generation, a group held already and one unclaimed. -/
theorem test_met_claims :
    ((([] : List Group) = [] ∨ ¬ ([] : List Group).Nodup) ∧ ¬ [Group.jacks, .jacks].Nodup)
    ∧ (State.reset.ctx.c.phase = .config ∧ waiting.ctx.c.phase = .run)
    ∧ (stowed.ctx.present (.room 5) = false ∧ groupIdx (.room 5) ≤ groupIdx .jacks ∧ stowed.ctx.present .jacks = true)
    ∧ (permit stowed.ctx stowed.u = true
      ∧ permit { stowed.ctx with c := { stowed.c with parkSet := false } } stowed.u = false)
    ∧ (permit waiting.ctx waiting.u = true ∧ claimOf waiting.u .jacks = some (claimBy .ml1)
      ∧ (claimBy .ml1).holder ≠ .link .ml0)
    ∧ ((waiting.u.waitList.filter fun e => e.link == .ml0).length < 2
      ∧ 2 ≤ (([entry, entry] : List WaitEntry).filter fun e => e.link == .ml0).length)
    ∧ (holderOf waiting.u .jacks = some (.link .ml1) ∧ claimOf waiting.u .awning = none
      ∧ [Group.jacks, .awning].Nodup) ∧ (1#32) ≠ stowed.u.generation := by decide +kernel

/-- An entry at its deadline; one at its preemption time that may take its group, ML0 ranking above ML1; one that may
not, the group being held by WL. -/
theorem test_met_wait_entries :
    (waiting.u.waitList[0]? = some entry ∧ reached entry.deadline (atTime 30000 waiting).m.now = true)
    ∧ ((atTime 20000 waiting).ctx.timing 3 ≠ 0 ∧ entry.tested = false
      ∧ reached (entry.arrival + BitVec.ofNat 32 ((atTime 20000 waiting).ctx.timing 3 * 1000)) 20000 = true)
    ∧ ((claimBy .ml1).kind = .explicit ∧ (claimBy .ml1).mark = false ∧ idle waiting.u .jacks = true
      ∧ waiting.ctx.rank .ml0 < waiting.ctx.rank .ml1 ∧ waiting.u.waitList.take 0 = [])
    ∧ claimOf (withClaim .jacks { claimBy .ml1 with holder := .wl } waiting).u .jacks
      = some { claimBy .ml1 with holder := .wl } := by decide +kernel

theorem test_met_hold_refresh :
    8 ≤ (8#8 : Byte).toNat ∧ State.reset.c.phase = .config
    ∧ (stowed.c.phase = .run ∧ stowed.ctx.present (.room 3) = false)
    ∧ (stowed.ctx.present .jacks = true ∧ motionOwner stowed.u .jacks ≠ some (.link .ml0, .hold))
    ∧ (motionOwner (withRoom roomRecord stowed).u (.room 0) = some (.link .ml0, .hold)
      ∧ (withRoom roomRecord stowed).u.rooms[0].motion = some roomRecord)
    ∧ (motionOwner (withJacks (jackRecord .seek 1) stowed).u .jacks = some (.link .ml0, .hold)
      ∧ (withJacks (jackRecord .seek 1) stowed).u.jacks.motion = some (jackRecord .seek 1))
    ∧ (motionOwner awningHeld.u .awning = some (.link .ml0, .hold)
      ∧ awningHeld.u.awning.motion = some awningRecord) := by decide +kernel

theorem test_met_stops :
    State.reset.c.phase = .config ∧ stowed.c.phase = .run
    ∧ (stowed.ctx.roomPresent 1 = true ∧ stowed.u.rooms[1].motion = none) ∧ stowed.u.jacks.motion = none
    ∧ (stowed.ctx.awningPresent = true ∧ stowed.u.awning.retract = none ∧ stowed.u.awning.motion = none)
    ∧ ({ stowed.u.awning with
        retract := some { cause := .wind, step := .drive, dwellEnd := none } } : Awning).retract.isSome := by
  decide +kernel

/-! ## Single steps that took a repair -/

/-- R34: of two equal entries of ML0 the older leaves at its deadline, and the entry of ML2 between them is granted. -/
theorem test_twin_entries : gives (.claimWaitDeadline 0)
    (let both := { entry with missing := [.jacks, .awning], asked := [.jacks, .awning] }
     let s := atTime 30000 (withClaim .awning (claimBy .ml1) stowed)
     { s with u := { s.u with waitList := [both, { entry with link := .ml2, deadline := 60000 }, both] } })
    (fun t => holderOf t.u .jacks == some (.link .ml2)) = true := by decide +kernel

/-- R70, R75: a retract paused by the heat ends at its in-switch, where it stands. -/
theorem test_paused_retract_ends : gives (.inSwitchChange 1 .a true)
    (let k := { roomRecord with dir := .inward, step := RoomStep.pause, lostTurn := true, pinDeadline := none
                                dwellEnd := none }
     { stowed with
       m := { stowed.m with roomSw := stowed.m.roomSw.set 1 {} }
       u := { stowed.u with rooms := stowed.u.rooms.set 1 { state := .paused, motion := some k } } })
    (fun t => t.u.rooms[1].state == .stowed && t.u.rooms[1].motion == none) = true := by decide +kernel

/-- R184: the mark of a kept ESTOP is the level of the input at the end of XRST. -/
theorem test_xrst_estop_mark : gives (.xrst { stowedPins with estop := true })
    (withRecord .coach { clearableRecord with state := .active, codes := [(.estop, false)] } stowed)
    (fun t => marked (faultOf t.u .coach) .estop) = true := by decide +kernel

/-- R83, R179: the echo that clears the jacks makes the coach travel-ready, ends ROAD_MOTION and lets CHAIN_EN rise. -/
theorem test_echo_ends_road_motion : gives (.echoReceived quietEcho)
    (let s := withRecord .coach { clearableRecord with state := .active, codes := [(.roadMotion, true)] }
       (withRecord (.group .jacks) clearableRecord inFlight)
     { s with
       m := { s.m with roadSpeed := 30 }
       u := { s.u with jacks := { state := .fault }
                       heldClears := [{ link := .ml0, tag := 9, subject := .group .jacks }] } })
    (fun t => t.u.chainEn && (faultOf t.u .coach).state == .clearable) = true := by decide +kernel

/-! ## Budget and samples -/

/-- The coach with admissions and a budget queue. -/
def budget (a : List Admission) (q : List BudgetWait) : Units := { stowed.u with admissions := a, budgetQueue := q }
/-- The pump admitted. -/
def pumpIn : Admission := { consumer := .pump, allocation := 600, stamp := 0 }
/-- A drive waiting. -/
def driveWaits : BudgetWait where
  consumer := .drive 0
  allocation := 100
  arrival := 0
  cause := .request
  earliest := 0

/-- Admitted, queued, and each side of the two limits: 1500 in all, 1400 for all but the awning, of which each asks
100. -/
theorem test_met_admission :
    (∃ e ∈ (budget [pumpIn] []).admissions, e.consumer = .pump)
    ∧ ((∀ e ∈ (budget [pumpIn] [driveWaits]).admissions, e.consumer ≠ .drive 0)
      ∧ ∃ w ∈ (budget [pumpIn] [driveWaits]).budgetQueue, w.consumer = .drive 0)
    ∧ ((∀ w ∈ (budget [pumpIn] []).budgetQueue, w.consumer ≠ .awning)
      ∧ 1400 + allocation stowed.ctx .awning ≤ stowed.m.bLim
      ∧ stowed.m.bLim < 1401 + allocation stowed.ctx .awning)
    ∧ (1300 + allocation stowed.ctx (.drive 0) ≤ stowed.m.bLim - reserve stowed.ctx
      ∧ stowed.m.bLim - reserve stowed.ctx < 1301 + allocation stowed.ctx (.drive 0)) := by decide +kernel

/-- A room drive shed with its motion paused. -/
def shedRoom : State :=
  let k := { roomRecord with step := RoomStep.pause, lostDrive := true, pinDeadline := none, dwellEnd := none }
  let s := withRoom k stowed
  { s with u := { s.u with
      budgetQueue := [driveWaits]
      image := { s.u.image with motorA := s.u.image.motorA.set 0 { dir := .outward } } } }

/-- What comes back to a consumer admitted from the queue: the pump, a solenoid in UNPIN, a drive, the awning's motor.
-/
theorem test_met_readmission :
    jacksMoving.u.manifold.user.isSome
    ∧ roomRecord.pinDeadline.isSome ∧ (withRoom { roomRecord with step := .unpin } stowed).u.rooms[0].motion
      = some { roomRecord with step := .unpin }
    ∧ (shedRoom.ctx.electric 0 = true ∧ (∃ mo, shedRoom.u.rooms[0].motion = some mo ∧ mo.step = .pause
        ∧ mo.lostDrive = true ∧ mo.lostPin = false ∧ mo.lostTurn = false ∧ mo.dwellEnd = none ∧ mo.pinDeadline = none
        ∧ (imageMotor shedRoom.u.image 0 .a).dir = motorDir mo.dir ∧ endReached shedRoom.ctx 0 mo .a = false)
      ∧ shedRoom.u.rooms[0].syncHold = none)
    ∧ (awningStep awningMoving.u = some .drive ∧ awningAtEnd awningMoving.ctx awningMoving.u = false) :=
  ⟨by decide +kernel, by decide +kernel, by decide +kernel,
    ⟨by decide +kernel, ⟨_, rfl, by decide +kernel⟩, by decide +kernel⟩, by decide +kernel⟩

/-- The pass: CONFIG; in RUN a queue with each consumer once, a waiting AWNING that fits, and a head that does not. -/
theorem test_met_pass :
    State.reset.ctx.c.phase = .config ∧ stowed.ctx.c.phase = .run
    ∧ ((budget [] [driveWaits, { driveWaits with consumer := .awning }]).budgetQueue.map (·.consumer)).Nodup
    ∧ ((budget [pumpIn] []).admissions.map (·.allocation)).sum + 100 ≤ stowed.m.bLim
    ∧ (driveWaits.consumer ≠ .awning ∧ stowed.m.bLim - reserve stowed.ctx < 1400 + driveWaits.allocation) := by
  decide +kernel

/-- The coach below the voltage floor for 1000 ms. -/
def sagging : State :=
  { stowed with m := { stowed.m with now := 1000, undervolt := some 0 } }

/-- Three admissions of a coach: the pump, a drive and the awning. -/
def loaded : State :=
  { stowed with u := { stowed.u with admissions := [pumpIn, { consumer := .drive 0, allocation := 100, stamp := 0 },
                                                     { consumer := .awning, allocation := 100, stamp := 0 }] } }

/-- Below the floor for 1000 ms; in RUN below the floor for a first sample, and above it, where the admissions fit the
limit that 12.20 V gives and not those that 11.40 V and 10.79 V give, UNDERVOLT present and absent. -/
theorem test_met_vbat : 1079 ≤ 4000 ∧ 4000 ≤ 4000 ∧ 1079 < sagging.ctx.general 2
    ∧ (elapsed (sagging.m.undervolt.getD sagging.m.now) sagging.m.now 1000 = true
      ∧ marked (faultOf sagging.u .coach) .undervolt = false)
    ∧ (loaded.c.phase = .run ∧ 1079 < loaded.ctx.general 2 ∧ loaded.ctx.general 2 ≤ 1140
      ∧ elapsed (loaded.m.undervolt.getD loaded.m.now) loaded.m.now 1000 = false
      ∧ (loaded.u.admissions.map (·.consumer)).Nodup)
    ∧ (loaded.m.ibusRange = .inRange ∧ loaded.m.pmanRange = .inRange
      ∧ marked (faultOf (withRecord .coach { clearableRecord with codes := [(.undervolt, true)] } loaded).u .coach)
        .undervolt = true)
    ∧ 700 ≤ budgetLimit 1500 1220 1080 1220 - reserve loaded.ctx ∧ 800 ≤ budgetLimit 1500 1220 1080 1220
    ∧ ¬ 700 ≤ budgetLimit 1500 1220 1080 1140 - reserve loaded.ctx ∧ budgetLimit 1500 1220 1080 1079 = 0 := by
  decide +kernel

theorem test_met_out_of_range : ((-1 : Int) < 0 ∧ (4000 : Int) < 4001 ∧ (3000 : Int) < 3001)
    ∧ stowed.m.vbatRange = .inRange ∧ stowed.m.ibusRange = .inRange ∧ stowed.m.pmanRange = .inRange := by decide +kernel

/-- IBUS at and above 165.0 A, which is 1.10 x 150.0 A; PMAN at and above 200.0 bar, and 200 ms above it. -/
theorem test_met_overload :
    stowed.c.phase = .run ∧ 10 * 1650 ≤ 11 * stowed.m.bLim ∧ 11 * stowed.m.bLim < 10 * 1651 ∧ stowed.u.overload = none
    ∧ elapsed 0 499 500 = false ∧ elapsed 0 500 500 = true ∧ State.reset.c.phase = .config
    ∧ (∀ a ∈ stowed.u.admissions, a.consumer = .awning)
    ∧ (loaded.u.admissions = [pumpIn] ++ { consumer := .drive 0, allocation := 100, stamp := 0 }
          :: [{ consumer := .awning, allocation := 100, stamp := 0 }] ∧ Consumer.drive 0 ≠ .awning)
    ∧ stowed.ctx.general 4 = 2000
    ∧ ¬ (stowed.ctx.general 4 < 2001 ∧ elapsed (stowed.m.overpressure.getD stowed.m.now) stowed.m.now 200 = true)
    ∧ elapsed (({ stowed.m with overpressure := some 0 } : Measured).overpressure.getD 200) 200 200 = true := by
  decide +kernel

theorem test_met_jack_samples : ((3 : Fin 6).val < 4 ∧ 4 ≤ (4 : Fin 6).val ∧ stowed.m.straps.jacks6 = false)
    ∧ ((0 : Int) ≤ 0 ∧ (3000 : Int) ≤ 3000 ∧ (3000 : Int) < 3001 ∧ (-1 : Int) < 0)
    ∧ stowed.c.phase = .run ∧ stowed.m.pjRange[(0 : Fin 6)] = .inRange := by decide +kernel

theorem test_met_tilt : ((-1500 : Int) ≤ -1500 ∧ (1500 : Int) ≤ 1500 ∧ (1500 : Int) < 1501)
    ∧ stowed.c.phase = .run ∧ stowed.m.tiltXRange = .inRange ∧ stowed.m.tiltYRange = .inRange
    ∧ ([1, 2, 3, 4, 5, 6, 7, 8] : List Int).length = 8 := by decide +kernel

theorem test_met_road_speed : State.reset.c.profile = none
    ∧ elapsed State.reset.m.windowStart (atTime 1000 State.reset).m.now 1000 = true := by decide +kernel

theorem test_met_estop : stowed.m.estop = false ∧ ({ stowed.m with estop := true } : Measured).estop = true
    ∧ stowed.u.chainEn = false := by decide +kernel

/-! ## Axes, wind, lines, frames -/

theorem test_met_pulses : governed stowed.ctx stowed.u .awning = 0
    ∧ governed awningMoving.ctx awningMoving.u .awning = 1
    ∧ stowed.ctx.electric 0 = true ∧ stowed.ctx.electric 1 = false ∧ Axis.awning ≠ .jack 0 := by decide +kernel

theorem test_met_home : stowed.ctx.inSwitch 0 .b ≠ false ∧ stowed.m.jackStowed[(0 : Fin 6)] ≠ false
    ∧ stowed.m.awningStowed ≠ false ∧ (stowed.m.roomSw[(0 : Fin 6)]).engaged ≠ false
    ∧ (stowed.m.roomSw[(0 : Fin 6)]).withdrawn ≠ true := by decide +kernel

/-- The awning's drive on since 0: with no pulse it stalls at 900 ms, with one at 1000 not before 1600. -/
theorem test_met_stalls : awningDriven.u.driveOn[axisIdx .awning] = some 0
    ∧ (awningDriven.m.counter .awning).lastPulse = none
    ∧ reached ((0#32 + 300#32) + BitVec.ofNat 32 600) (atTime 900 awningDriven).m.now = true
    ∧ reached ((0#32 + 300#32) + BitVec.ofNat 32 600) (atTime 899 awningDriven).m.now = false
    ∧ reached (0#32 + 300#32) 1000 = true ∧ reached (1000#32 + BitVec.ofNat 32 600) 1599 = false
    ∧ awningDriven.ctx.present .awning = true := by decide +kernel

/-- The coach with an anemometer pulse at coach time 0. -/
def breeze : State :=
  { stowed with m := { stowed.m with wind := { stowed.m.wind with lastPulse := some 0, lastSpeed := some 9 } } }

theorem test_met_anemometer : stowed.m.wind.lastPulse = none ∧ breeze.m.wind.lastPulse = some 0
    ∧ 2000 < ((atTime 2001 breeze).m.now - 0#32).toNat
    ∧ (0 < ((atTime 1 breeze).m.now - 0#32).toNat ∧ ((atTime 2000 breeze).m.now - 0#32).toNat ≤ 2000)
    ∧ (breeze.m.now - 0#32).toNat = 0 := by decide +kernel

theorem test_met_wind_second :
    elapsed stowed.m.wind.secondStart (atTime 1000 stowed).m.now 1000 = true
    ∧ (breeze.m.wind.speeds = [] ∧ (∃ p ∈ breeze.m.wind.lastPulse, ((atTime 2000 breeze).m.now - p).toNat ≤ 2000)
      ∧ breeze.m.wind.lastSpeed = some 9)
    ∧ (∀ p ∈ stowed.m.wind.lastPulse, 2000 < (stowed.m.now - p).toNat)
    ∧ (stowed.ctx.awningField 5 ≤ 40 ∧ 39 < stowed.ctx.awningField 5)
    ∧ ((((List.replicate 30 30) ++ [30]).rtake 30).length = 30
      ∧ stowed.ctx.awningField 6 ≤ (((List.replicate 30 30) ++ [30]).rtake 30).sum / 30)
    ∧ ((([] : List Nat) ++ [39]).rtake 30).length < 30 :=
  ⟨by decide +kernel, ⟨by decide +kernel, ⟨0, rfl, by decide +kernel⟩, by decide +kernel⟩, vacuous rfl,
    by decide +kernel,
    by decide +kernel, by decide +kernel⟩

/-- The coach with the virtual line V0 active under ML0 to coach time 300. -/
def lineOn : State :=
  { stowed with c := { stowed.c with
      virt := stowed.c.virt.set 0 { value := true, writer := some .ml0, deadline := some 300 } } }

/-- The coach with L0 under an entry. -/
def mapped (e : MapEntry) : State :=
  { stowed with c := { stowed.c with wired := stowed.c.wired.set 0 { stowed.c.wired[0] with map := e } } }

theorem test_met_lines :
    noRequestWaits stowed.c ∧ (Level.low = (stowed.c.wired[(0 : Fin 16)]).level)
    ∧ (Level.high ≠ (stowed.c.wired[(0 : Fin 16)]).level
      ∧ elapsed 0 (atTime 30 stowed).m.now (stowed.c.wired[(0 : Fin 16)]).debounce = true
      ∧ elapsed 0 (atTime 29 stowed).m.now (stowed.c.wired[(0 : Fin 16)]).debounce = false
      ∧ ((stowed.c.wired[(0 : Fin 16)]).polarity = .activeHigh ↔ Level.high = .high))
    ∧ (noRequestWaits lineOn.c ∧ (lineOn.c.virt[(0 : Fin 8)]).value = true
      ∧ ∃ d ∈ (lineOn.c.virt[(0 : Fin 8)]).deadline, reached d (atTime 300 lineOn).m.now = true) :=
  ⟨noneWait (by decide +kernel), by decide +kernel, by decide +kernel, noneWait (by decide +kernel), by decide +kernel,
    300, by decide +kernel, by decide +kernel⟩

/-- Each kind of entry: NONE, NOTICE masked and unmasked, EDGE and LEVEL MOTION, PARK, IGN. -/
theorem test_met_entries :
    let on := fun (e : MapEntry) => entryOf (mapped e).c (.wired 0) = e
    on {} ∧ on { action := .notice } ∧ on { action := .notice, mask := .unmasked, trigger := .level }
    ∧ (on { action := .jackMotion .stop } ∧ (actionGroup (.jackMotion .stop)).isSome)
    ∧ (on { action := .roomMotion 0 .extend, trigger := .level, mask := .unmasked }
      ∧ actionGroup (.roomMotion 0 .extend) = some (.room 0))
    ∧ on { action := .posture .park } ∧ (on { action := .posture .ign } ∧ (desk stowed).c.ignOn = false) := by
  decide +kernel

theorem test_met_lines_set :
    (desk State.reset).c.phase = .config ∧ (desk stowed).c.phase = .run
    ∧ 8 < (List.replicate 9 ((Line.virtual 0, true) : Line × Bool)).length
    ∧ ¬ (([(.virtual 0, true), (.virtual 0, false)] : List (Line × Bool)).map Prod.fst).Nodup
    ∧ (Line.wired 15, true) ∈ ([(.wired 15, true)] : List (Line × Bool))
    ∧ ¬ (([(.virtual 0, true), (.virtual 7, false)] : List (Line × Bool)) = []
      ∨ 8 < ([(.virtual 0, true), (.virtual 7, false)] : List (Line × Bool)).length)
    ∧ ¬ (¬ (([(.virtual 0, true), (.virtual 7, false)] : List (Line × Bool)).map Prod.fst).Nodup
      ∨ ∃ n b, (Line.wired n, b) ∈ ([(.virtual 0, true), (.virtual 7, false)] : List (Line × Bool))) := by
  refine ⟨rfl, rfl, by decide, by decide, by decide, by decide, ?_⟩
  rintro (h | ⟨n, b, h⟩)
  · exact h (by decide)
  · simp at h

/-- The lists a MAP_WRITE may bring, by the answer: a debounce at and outside its bounds, a POSTURE entry, an absent
group, an entry in service, and one that is served, with a mark waiting, with a line active and with a change being
timed. -/
theorem test_met_map_write :
    (([] : List MapField) = [] ∧ ([MapField.debounce 9].map fieldIndex).Nodup ∧ 9 < 10 ∧ 200 < 201)
    ∧ (actionStops (.jackMotion .stop) = true
      ∧ ([MapField.trigger .level, .action (.jackMotion .stop)].foldl writeEntryField {}).trigger = .level)
    ∧ (entryOf (mapped { action := .posture .park }).c (.wired 0)).action = .posture .park
    ∧ (actionGroup ([MapField.action (.roomMotion 5 .extend)].foldl writeEntryField {}).action = some (.room 5)
      ∧ stowed.ctx.present (.room 5) = false)
    ∧ (entryOf (mapped { inService := true }).c (.wired 0)).inService = true
    ∧ checkMapWrite stowed.m (.wired 0) [.debounce 10, .debounce 200] (desk stowed) ≠ none
    ∧ checkMapWrite stowed.m (.wired 0) [.debounce 200, .mask .unmasked] (desk stowed) = none
    ∧ fieldIndex (.mask .unmasked) = 3 ∧ fieldIndex (.debounce 200) ≠ 3
    ∧ (lineActive lineOn.c (.virtual 0) = true ∧ elapsed 0 10 10 = true ∧ elapsed 0 9 10 = false) := by decide +kernel

/-- A delivery that is served and one that is refused. -/
theorem test_met_delivery :
    (roomStop stowed.ctx (.room 0) stowed.u).2.1 = .notMoving
    ∧ (jackRequest stowed.ctx { who := .wl, line := none, route := .leastAttention } { kind := .auto, mode := .full } none
        stowed.u).2.1 = .accepted := by decide +kernel

theorem test_met_frames :
    (noRequestWaits stowed.c ∧ stowed.u.flight = none
      ∧ elapsed stowed.u.frameStart (atTime 10 stowed).m.now 10 = true)
    ∧ (noRequestWaits inFlight.c
      ∧ inFlight.u.flight = some { frame := {}, start := 0, confirms := Vector.replicate 9 true }
      ∧ elapsed 0 (atTime 10 inFlight).m.now 10 = true) ∧ 1 ≤ ({ inFlight.m with mismatch := 1 } : Measured).mismatch :=
  ⟨⟨noneWait (by decide +kernel), rfl, by decide +kernel⟩, ⟨noneWait (by decide +kernel), rfl, by decide +kernel⟩,
    by decide⟩

/-- The coach with a frame in flight, a record of ROOM0 ACTIVE and unconfirmed, and a clear held for the jacks. -/
def clearing : State :=
  { withRecord (.group (.room 0)) { clearableRecord with state := .active, confirmed := false } inFlight with
    u := { (withRecord (.group (.room 0)) { clearableRecord with state := .active, confirmed := false } inFlight).u with
      heldClears := [{ link := .ml0, tag := 9, subject := .group .jacks }] } }

theorem test_met_echoes : stowed.u.flight = none
    ∧ (∀ k, channelValue ({} : Image) k = channelValue quietEcho.latched k)
    ∧ (∃ k, channelValue ({} : Image) k ≠ channelValue otherEcho.latched k) :=
  ⟨rfl, by decide +kernel, 0, by decide +kernel⟩

/-- New trips with and without an owning group, a hot board, an all-off frame in RUN, a record confirmed, and a clear
held where the echo shows a trip, a hot board, or neither. -/
theorem test_met_echo_effects :
    (∀ p ∈ clearing.m.lastEcho, (9 : Fin 33) ∉ p.trips) ∧ noRequestWaits clearing.c
    ∧ (channelOwner 0 = none ∧ channelOwner 9 = some (.room 1) ∧ clearing.ctx.present (.room 1) = true)
    ∧ (marked (faultOf clearing.u .coach) .boardHot = false ∧ imageAllOff ({} : Image) = true ∧ clearing.c.phase = .run)
    ∧ (quietEcho.trips = [] ∧ clearing.m.roadSpeed < 2
      ∧ (Vector.replicate 9 true : Vector Bool 9)[subjectIdx (.group (.room 0))] = true
      ∧ (∀ h ∈ clearing.u.heldClears, h.subject ≠ .group (.room 0))
      ∧ (faultOf clearing.u (.group (.room 0))).state = .active
      ∧ ∀ c ∈ (faultOf clearing.u (.group (.room 0))).codes, c.2 = false)
    ∧ (channelOwner 7 = some .jacks ∧ clearing.m.mismatch = 0
      ∧ ({ link := .ml0, tag := 9, subject := .group .jacks } : HeldClear) ∈ clearing.u.heldClears) :=
  ⟨vacuous rfl, noneWait (by decide +kernel), by decide +kernel, by decide +kernel, by decide +kernel,
    by decide +kernel⟩

/-! ## Timers, heat, faults -/

/-- The coach with its jacks off their stowed switches and not in contact. -/
def jacksOff : State := { stowed with m := { stowed.m with jackStowed := Vector.replicate 6 false } }

theorem test_met_expired_steps :
    ((withRoom roomRecord stowed).u.rooms[0].motion = some roomRecord ∧ roomRecord.pinDeadline = some 2000
      ∧ reached 2000 (atTime 2000 stowed).m.now = true ∧ stowed.ctx.roomPresent 0 = true)
    ∧ ((withJacks (jackRecord .reseek 30000) stowed).u.jacks.motion = some (jackRecord .reseek 30000)
      ∧ reached 30000 (atTime 30000 stowed).m.now = true ∧ stowed.ctx.jackPresent 3 = true
        ∧ stowed.ctx.contact 3 = false)
    ∧ ((jackRecord .retract 30000).step = .retract ∧ jacksOff.ctx.jackPresent 0 = true
      ∧ jacksOff.m.jackStowed[(0 : Fin 6)] = false) := by decide +kernel

/-- The coach with every jack in contact and level tilt rows. -/
def levelSet : State :=
  { stowed with m := { stowed.m with
      pjLast := Vector.replicate 6 (some 3000), tiltX := List.replicate 8 0, tiltY := List.replicate 8 30 } }

theorem test_met_timed_steps :
    ((withRoom roomRecord stowed).u.rooms[0].motion = some roomRecord ∧ roomRecord.dwellEnd = some 500
      ∧ reached 500 (atTime 500 stowed).m.now = true ∧ roomRecord.step ≠ .pause)
    ∧ awningDwellEnd awningHeld.u = some 500
    ∧ (groupHold awningHeld.u .awning = .deadline 300 ∧ reached 300 (atTime 300 awningHeld).m.now = true)
    ∧ ((jackRecord .lift 5000).step = .lift ∧ (jackRecord .settle 5000).step = .settle
      ∧ reached 5000 (atTime 5000 levelSet).m.now = true ∧ levelSet.ctx.allContact = true
      ∧ rowError levelSet.m.tiltX ≤ levelSet.ctx.tolerance ∧ rowError levelSet.m.tiltY ≤ levelSet.ctx.tolerance)
    ∧ (jacksMoving.u.manifold.state = .switching ∧ jacksMoving.u.manifold.switchingEnd = some 300
      ∧ reached 300 (atTime 300 jacksMoving).m.now = true ∧ jacksMoving.u.manifold.user.isSome) := by decide +kernel

/-- ROOM1 running out on its turn. -/
def roomRunning : State := past (.roomMove .ml0 1 (.room 1) .outward .full none none) linkedCoach

theorem test_met_heat :
    (roomRunning.u.image.pump = true
      ∧ elapsed roomRunning.u.manifold.heatStart (atTime 100 roomRunning).m.now 100 = true ∧ 1798 < 1799)
    ∧ (roomRunning.u.manifold.user = some (.room 1) ∧ roomRunning.u.rooms[1].motion.isSome
      ∧ jacksMoving.u.manifold.user = some .jacks ∧ jacksMoving.u.jacks.motion.isSome)
    ∧ (stowed.u.image.pump = false ∧ elapsed stowed.u.manifold.heatStart (atTime 300 stowed).m.now 300 = true
      ∧ stowed.u.manifold.state ≠ .cooling ∧ stowed.u.manifold.user = none)
    ∧ (({ stowed.u.manifold with state := .cooling } : Manifold).queue = []
      ∧ ({ stowed.u.manifold with state := .cooling, queue := [{ user := .jacks }] } : Manifold).queue
        = { user := .jacks } :: [] ∧ stowed.u.image.diverter ≠ userCircuit .jacks
      ∧ stowed.u.image.diverter = userCircuit (.room 1)) := by decide +kernel

/-- A code new to a record and one that stands in it; a link with room for the notices; groups moving and not; a room
that holds the turn. -/
theorem test_met_raises : (∀ b, (FaultCode.stall, b) ∉ (faultOf stowed.u (.group .jacks)).codes)
    ∧ (∃ b, (FaultCode.stall, b) ∈ (faultOf clearableRoom.u (.group (.room 0))).codes)
    ∧ Subject.coach ≠ .group .jacks
    ∧ (linkedCoach.ctx.linked .ml0 = true ∧ (roomRunning.u.out[linkIdx .ml0]).notices.length ≤ 6
      ∧ motionRequester roomRunning.u (.room 1) = some (.link .ml0) ∧ motionRequester roomRunning.u .jacks = none
      ∧ roomRunning.ctx.roomPresent 1 = true ∧ roomRunning.ctx.awningPresent = true ∧ roomRunning.c.phase = .run)
    ∧ (roomRunning.u.budgetQueue = [] ∧ roomRunning.u.manifold.queue = []
      ∧ groupUser (.room 1) = some (.room 1) ∧ roomRunning.u.manifold.user = some (.room 1)
      ∧ roomRunning.u.manifold.state = .running ∧ channelOwner 9 = some (.room 1)) :=
  ⟨by decide +kernel, ⟨false, by decide +kernel⟩, by decide, by decide +kernel, by decide +kernel⟩

/-- A subject byte out of range; an absent group, a group of another, an EMPTY, an ACTIVE and a CLEARABLE record. -/
theorem test_met_fault_clear :
    (9 ≤ (9#8 : Byte).toNat ∧ 9 < (10#8 : Byte).toNat ∧ ([] : List Byte).length ≠ 1 ∧ [0#8, 0#8].length ≠ 1)
    ∧ (State.reset.c.phase = .config ∧ stowed.c.phase = .run)
    ∧ (stowed.ctx.present (.room 5) = false ∧ (faultOf stowed.u (.group (.room 5))).state = .empty)
    ∧ (jacksHeld.ctx.present .jacks = true ∧ claimOf jacksHeld.u .jacks = some (claimBy .ml0)
      ∧ (claimBy .ml0).holder ≠ .link .ml1)
    ∧ (stowed.ctx.present .awning = true ∧ claimOf stowed.u .awning = none
      ∧ (faultOf stowed.u (.group .awning)).state = .empty)
    ∧ ((faultOf (withRecord .coach { clearableRecord with state := .active } stowed).u .coach).state = .active)
    ∧ ((faultOf clearableRoom.u (.group (.room 0))).state = .clearable ∧ claimOf clearableRoom.u (.room 0) = none) := by
  decide +kernel

/-! ## Internal retracts -/

/-- The coach with the wind hold SET. -/
def windy (s : State) : State := { s with m := { s.m with wind := { s.m.wind with hold := true } } }
/-- The awning out on an ignition retract. -/
def ignRetract : State :=
  { awningOut with u := { awningOut.u with
      awning := { state := .ignRetract, retract := some { cause := .ignition, step := .drive, dwellEnd := none } } } }

/-- Where a retract starts: an idle awning with no claim, a motion in each of its steps, a claim of a LINKED link;
where one passes to the wind; where neither happens. -/
theorem test_met_retracts :
    (retractStarts (windy awningOut).ctx (windy awningOut).u = true ∧ awningOut.u.awning.motion = none
      ∧ claimOf awningOut.u .awning = none ∧ (windy awningOut).ctx.m.awningStowed = false)
    ∧ (retractStarts (windy awningHeld).ctx (windy awningHeld).u = true
      ∧ awningHeld.u.awning.motion = some awningRecord ∧ awningRecord.step = .dwell)
    ∧ (retractStarts (windy awningMoving).ctx (windy awningMoving).u = true
      ∧ awningMoving.u.awning.motion.any (fun m => m.step == .drive && m.dir == .outward) = true)
    ∧ (linkedCoach.ctx.linked .ml0 = true ∧ (linkedCoach.u.out[linkIdx .ml0]).notices.length < 15
      ∧ claimOf (withClaim .awning (claimBy .ml0) awningOut).u .awning = some (claimBy .ml0)
      ∧ (claimBy .ml0).kind = .explicit ∧ (claimBy .ml0).mark = false)
    ∧ (ignRetract.u.awning.state = .ignRetract ∧ (windy ignRetract).ctx.m.wind.hold = true)
    ∧ retractStarts stowed.ctx stowed.u = false := by decide +kernel

theorem test_met_retract_events :
    (noRequestWaits awningOut.c ∧ elapsed awningOut.m.wind.secondStart (atTime 1000 awningOut).m.now 1000 = true
      ∧ awningOut.u.awning.motion = none ∧ awningOut.u.awning.retract = none ∧ awningOut.u.awning.state = .out
      ∧ awningOut.ctx.awningPresent = true ∧ awningOut.m.awningStowed = false)
    ∧ (noRequestWaits ignRetract.c ∧ ignRetract.m.awningStowed = false ∧ ignRetract.u.awning.retract.isSome
      ∧ ∀ g, motionRequester ignRetract.u g = none) := by
  refine ⟨⟨noneWait (by decide +kernel), by decide +kernel⟩, noneWait (by decide +kernel), by decide +kernel,
    by decide +kernel, ?_⟩
  rintro (n | _ | _)
  · revert n; decide +kernel
  · decide +kernel
  · decide +kernel

/-- The routes: no link open, ML0 the one link open, and a link holding the group. -/
theorem test_met_least_attention :
    (∀ l, ¬ (stowed.ctx.linked l = true ∧ (stowed.ctx.port l).attention = true))
    ∧ (holderOf jacksHeld.u .jacks = some (.link .ml0) ∧ ∀ l, holderOf stowed.u .jacks ≠ some (.link l))
    ∧ (let s := withPort stowed .ml2 { linked := true, attention := true, level := 15 }
      ∀ k, s.ctx.linked k = true ∧ (s.ctx.port k).attention = true ↔ k = .ml2) := by
  refine ⟨fun l => ?_, ⟨by decide +kernel, fun l => ?_⟩, fun k => ?_⟩
  · cases l <;> decide +kernel
  · cases l <;> decide +kernel
  · cases k <;> decide +kernel

/-! ## Motions updated, reversed, stopped and released -/

/-- Whether a code stands in a group's record. -/
def raised (k : FaultCode) (g : Group) (u : Units) : Bool := (faultOf u (.group g)).codes.any fun e => e.1 == k

/-- The coach with ROOM0 moving under ML0, in each step of a motion. -/
def roomIn (st : RoomStep) : State :=
  withRoom { roomRecord with step := st, pinDeadline := none, dwellEnd := none } stowed

/-- ROOM0 extending with both ends driven, end A at count a and end B at count b, both VALID, its pin still out. -/
def extending (a b : Int) : State :=
  let s := withRoom { roomRecord with step := .drive, pinDeadline := none, dwellEnd := none } stowed
  { s with
    m := { s.m with counterA := s.m.counterA.set 0 { count := a, valid := true }
                    counterB := s.m.counterB.set 0 { count := b, valid := true } }
    u := { s.u with
      admissions := [{ consumer := .pin 0, allocation := 60, stamp := 0 }]
      image := { s.u.image with motorA := s.u.image.motorA.set 0 { dir := .outward, duty := 100 }
                                motorB := s.u.image.motorB.set 0 { dir := .outward, duty := 100 } } } }

/-- ROOM0 in PIN_ENGAGE, its lock moving. -/
def engagingRoom : State :=
  let s := roomIn .pinEngage
  { s with m := { s.m with roomSw := s.m.roomSw.set 0 { inA := true, inB := true } } }

/-- A running room asked the same way, to a target, and the other way, in each step; a room at its in-switch asked in. -/
theorem test_met_running_rooms :
    let asked := fun (s : State) (dir : Direction) (mode : Mode) (p : Option Int) =>
      checkMotion s.ctx s.u (.link .ml0) (.room 0) none = none ∧ roomInterlock s.ctx s.u 0 dir = none
      ∧ (∀ t ∈ p, t ≤ s.ctx.roomStroke 0 ∧ s.ctx.roomPosition 0 < t)
      ∧ wouldTake s .ml0 { tag := 1, req := .roomMove (.room 0) dir mode p none } = true
    (asked roomMoving .outward .full (some 1000) ∧ asked roomMoving .inward .hold none
      ∧ roomMoving.u.rooms[0].motion.isSome)
    ∧ (∀ s ∈ extending 500 500 :: engagingRoom :: [RoomStep.dwell, .pause, .pinWait, .unpin, .driveWait].map roomIn,
      asked s .inward .hold none ∧ asked s .outward .hold none)
    ∧ (asked stowed .inward .full none ∧ stowed.u.rooms[0].motion = none ∧ stowed.u.rooms[0].state = .stowed) := by
  decide +kernel

/-- The coach with a jog of the jacks 0 and 3 down, in its JOG step. -/
def jogging : State :=
  let s := withJacks { jackRecord .jog 1 with kind := .jog, jogSet := [0, 3], jogDir := .down, deadline := none } stowed
  { s with u := { s.u with image := { s.u.image with
      jackValve := ((Vector.replicate 6 .off).set 0 .down).set 3 .down } } }

/-- A jack operation updated, a jog with a new jog set, and a request for what the set has reached already. -/
theorem test_met_running_jacks :
    let asked := fun (s : State) (k : JackAsk) (q : Request) =>
      badJackAsk s.ctx k = false ∧ checkMotion s.ctx s.u (.link .ml0) .jacks none = none
        ∧ jackInterlock s.ctx s.u k = none ∧ wouldTake s .ml0 { tag := 1, req := q } = true
    (asked jacksMoving { kind := .seek, mode := .hold } (.jackSeek .hold none) ∧ jacksMoving.u.jacks.motion.isSome)
    ∧ (asked jogging { kind := .jog, mode := .hold, set := [0, 1], dir := .down } (.jackJog [0, 1] .down .hold none)
      ∧ jogging.u.jacks.motion.isSome)
    ∧ (asked stowed { kind := .retract, mode := .full } (.jackRetract .full none)
      ∧ jackAlready stowed.ctx stowed.u { kind := .retract, mode := .full } = true ∧ stowed.u.jacks.motion = none) := by
  decide +kernel

/-- A running awning asked the same way and the other way, driving and in its dwell; one STOWED asked in. -/
theorem test_met_running_awning :
    let asked := fun (s : State) (dir : Direction) (mode : Mode) (p : Option Nat) =>
      checkMotion s.ctx s.u (.link .ml0) .awning none = none ∧ awningInterlock s.ctx s.u dir = none
      ∧ awningOwnCheck s.ctx s.u dir p = none
      ∧ wouldTake s .ml0 { tag := 1, req := .awningMove dir mode p none } = true
    (asked awningMoving .outward .full (some 50) ∧ asked awningMoving .inward .hold none
      ∧ awningStep awningMoving.u = some .drive)
    ∧ (asked awningHeld .inward .full none ∧ awningStep awningHeld.u = some .dwell)
    ∧ (asked stowed .inward .full none ∧ stowed.u.awning.state = .stowed) := by decide +kernel

/-- The coach with ROOM0 at its in-switch, driven in, its lock not ENGAGED. -/
def unlocked : State :=
  let s := withRoom { roomRecord with step := .drive, dir := .inward, pinDeadline := none, dwellEnd := none } stowed
  { s with m := { s.m with roomSw := s.m.roomSw.set 0 { inA := true, inB := true, withdrawn := true } } }

/-- Motions that a stop ends: of a room, of one that must engage its pin, of one that has the turn, of the jacks in a
turn and of the awning; and a room in PIN_ENGAGE, which a stop leaves. -/
theorem test_met_stop_procedure :
    (roomMoving.u.rooms[0].motion.any (fun mo => mo.step != .pinEngage) = true ∧ roomMoving.ctx.roomIn 0 = true
      ∧ roomMoving.ctx.lockState 0 = .engaged)
    ∧ (unlocked.u.rooms[0].motion.any (fun mo => mo.step != .pinEngage) = true ∧ unlocked.ctx.roomIn 0 = true
      ∧ unlocked.ctx.locked 0 = true ∧ unlocked.ctx.lockState 0 ≠ .engaged)
    ∧ (roomRunning.u.manifold.user = some (.room 1) ∧ roomRunning.u.manifold.state = .running
      ∧ roomRunning.u.manifold.queue = [])
    ∧ jacksMoving.u.jacks.motion.isSome ∧ awningMoving.u.awning.motion.isSome
    ∧ (motionSender roomMoving.u (.room 0) = some (.link .ml0, .links false false false)
      ∧ roomMoving.ctx.linked .ml0 = true)
    ∧ (roomIn .pinEngage).u.rooms[0].motion.any (fun mo => mo.step == .pinEngage) = true := by decide +kernel

/-- What RELEASE finds: a motion of the link, none, a room in PIN_ENGAGE of the link, and a group of another link. -/
theorem test_met_released :
    (holderOf roomMoving.u (.room 0) = some (.link .ml0) ∧ motionRequester roomMoving.u (.room 0) = some (.link .ml0)
      ∧ readyFor roomMoving .ml0 { tag := 1, req := .release [.room 0] })
    ∧ (holderOf jacksHeld.u .jacks = some (.link .ml0) ∧ motionRequester jacksHeld.u .jacks = none)
    ∧ (let s := withClaim (.room 0) (claimBy .ml0) (roomIn .pinEngage)
      holderOf s.u (.room 0) = some (.link .ml0) ∧ motionRequester s.u (.room 0) = some (.link .ml0))
    ∧ (holderOf waiting.u .jacks = some (.link .ml1) ∧ holderOf waiting.u .awning = none) :=
  ⟨⟨by decide +kernel, by decide +kernel, ready_of (by decide +kernel)⟩, by decide +kernel, by decide +kernel,
    by decide +kernel⟩

/-! ## Wait entries granted and blocked -/

/-- An entry blocked by a claim, one by an older entry alone, and one that the grant walk grants. -/
theorem test_met_grants :
    (waiting.u.waitList[0]? = some entry ∧ noRequestWaits (atTime 30000 waiting).c
      ∧ waitBlocked waiting.u 0 entry)
    ∧ (let u := { stowed.u with waitList := [entry, { entry with link := .ml2 }] }
      ¬ waitBlocked u 0 entry ∧ waitBlocked u 1 { entry with link := .ml2 } ∧ claimOf u .jacks = none
      ∧ ∃ o ∈ u.waitList.take 1, ∃ g ∈ o.missing, g ∈ entry.missing) := by
  unfold waitBlocked
  exact ⟨⟨by decide +kernel, noneWait (by decide +kernel), by decide +kernel⟩, by decide +kernel⟩

/-! ## Pulses, switches and timed steps at the writing units -/

theorem onlyMoves_of {g : Group} {u : Units} (h : (movingGroups u).all (fun k => decide (k = g)) = true)
    (r : u.awning.retract = none) : onlyMoves g u := by
  refine ⟨fun k hk => ?_, r⟩
  have mem : k ∈ allGroups := by
    rcases k with n | _ | _
    · exact (by decide : ∀ n : Fin 6, Group.room n ∈ allGroups) n
    · decide
    · decide
  cases e : motionRequester u k with
  | none => rfl
  | some q =>
    have hm : k ∈ movingGroups u := List.mem_filter.2 ⟨mem, by rw [e]; rfl⟩
    exact absurd (of_decide_eq_true (List.all_eq_true.1 h k hm)) hk

/-- ROOM0 extending with its end B stopped at the stroke and end A one pulse short of it. -/
def lastEnd : State :=
  let s := extending 999 1000
  { s with u := { s.u with image := { s.u.image with motorB := s.u.image.motorB.set 0 {} } } }

/-- Counted room pulses: leads above the fault limit, above the window and at half of it; an end at its stroke; the pin
released at 100; the last end of an extend. -/
theorem test_met_room_pulses :
    (stowed.ctx.roomField 0 10 = 20 ∧ stowed.ctx.roomField 0 11 = 80 ∧ stowed.ctx.roomStroke 0 = 1000
      ∧ stowed.ctx.roomPresent 0 = true)
    ∧ (governed (extending 100 0).ctx (extending 100 0).u (.roomEnd 0 .a) = 1
      ∧ gives (.axisPulse (.roomEnd 0 .a)) (extending 100 0) (fun t => raised .sync (.room 0) t.u))
    ∧ gives (.axisPulse (.roomEnd 0 .a)) (extending 320 300) (fun t => t.u.rooms[0].syncHold == some .a)
    ∧ gives (.axisPulse (.roomEnd 0 .a)) (extending 99 100) (fun t => t.u.admissions.isEmpty)
    ∧ (noRequestWaits lastEnd.c ∧ lastEnd.m.roadSpeed < 2 ∧ onlyMoves (.room 0) lastEnd.u
      ∧ governed lastEnd.ctx lastEnd.u (.roomEnd 0 .b) = 0
      ∧ gives (.axisPulse (.roomEnd 0 .a)) lastEnd (fun t => t.u.rooms[0].state == .out)) :=
  ⟨by decide +kernel, by decide +kernel, by decide +kernel, by decide +kernel, noneWait (by decide +kernel),
    by decide +kernel, onlyMoves_of (by decide +kernel) (by decide +kernel), by decide +kernel, by decide +kernel⟩

/-- A jack operation in a step, jack 0 one pulse short of its max stroke with its valve DOWN, in CONTACT or not. -/
def jackAtStroke (st : JackStep) (contact : Bool) : State :=
  let s := withJacks { jackRecord st 9000 with lifted := [0, 2], jogSet := [0], jogDir := .down, passes := 3 } stowed
  { s with
    m := { s.m with
      counterJ := s.m.counterJ.set 0 { count := s.ctx.maxStroke - 1, valid := true }
      pjLast := Vector.replicate 6 (if contact then some 3000 else none) }
    u := { s.u with image := { s.u.image with jackValve := (Vector.replicate 6 .off).set 0 .down } } }

/-- Counted jack pulses at the max stroke: in a seek without CONTACT, in a lift with and without every jack in CONTACT,
and in a jog. -/
theorem test_met_jack_pulses :
    (∀ st ∈ [JackStep.seek, .lift, .jog], ∀ b ∈ [true, false],
      governed (jackAtStroke st b).ctx (jackAtStroke st b).u (.jack 0) = 1 ∧ (jackAtStroke st b).m.roadSpeed < 2)
    ∧ noRequestWaits (jackAtStroke .lift true).c ∧ onlyMoves .jacks (jackAtStroke .lift true).u
    ∧ gives (.axisPulse (.jack 0)) (jackAtStroke .seek false)
        (fun t => raised .noGround .jacks t.u)
    ∧ gives (.axisPulse (.jack 0)) (jackAtStroke .lift true)
        (fun t => t.u.jacks.motion.isNone && t.u.jacks.state == .grounded)
    ∧ gives (.axisPulse (.jack 0)) (jackAtStroke .lift false)
        (fun t => t.u.jacks.motion.any fun k => k.step == .reseek && k.unreachable)
    ∧ gives (.axisPulse (.jack 0)) (jackAtStroke .jog false) (fun t => t.u.jacks.motion.isNone) :=
  ⟨by decide +kernel, noneWait (by decide +kernel), onlyMoves_of (by decide +kernel) (by decide +kernel), by decide +kernel,
    by decide +kernel, by decide +kernel, by decide +kernel⟩

/-- The awning driven out, at a count. -/
def awningAt (n : Int) : State :=
  { awningMoving with m := { awningMoving.m with awningStowed := false, counterAw := { count := n, valid := true } } }

/-- Counted awning pulses: one that reaches the stroke and one that overruns it by more than 50. -/
theorem test_met_awning_pulses :
    (stowed.ctx.awningStroke = 2000 ∧ noRequestWaits (awningAt 1999).c ∧ (awningAt 1999).m.roadSpeed < 2
      ∧ onlyMoves .awning (awningAt 1999).u ∧ (awningAt 1999).m.wind.hold = false
      ∧ (awningAt 1999).u.awning.ignitionMark = false
      ∧ gives (.axisPulse .awning) (awningAt 1999) (fun t => t.u.awning.state == .out && t.u.awning.motion.isNone))
    ∧ gives (.axisPulse .awning) (awningAt 2050) (fun t => raised .stall .awning t.u) :=
  ⟨⟨by decide +kernel, noneWait (by decide +kernel), by decide +kernel, onlyMoves_of (by decide +kernel) (by decide +kernel),
    by decide +kernel, by decide +kernel, by decide +kernel⟩, by decide +kernel⟩

/-- ROOM0 retracting with end B on its switch, end A at a VALID count, its lock as given. -/
def lastSwitch (count : Int) (engaged : Bool) : State :=
  let s := withRoom { roomRecord with step := .drive, dir := .inward, pinDeadline := none, dwellEnd := none } stowed
  { s with
    m := { s.m with roomSw := s.m.roomSw.set 0 { inB := true, engaged := engaged, withdrawn := !engaged }
                    counterA := s.m.counterA.set 0 { count := count, valid := true } }
    u := { s.u with image := { s.u.image with motorA := s.u.image.motorA.set 0 { dir := .inward, duty := 100 } } } }

/-- Room switches made: the last end of a retract with the lock ENGAGED and not, with a count that had drifted by more
than 50; and the lock's ENGAGED in PIN_ENGAGE. -/
theorem test_met_room_switches :
    (noRequestWaits (lastSwitch 51 true).c ∧ (lastSwitch 51 true).m.roadSpeed < 2
      ∧ onlyMoves (.room 0) (lastSwitch 51 true).u ∧ (lastSwitch 51 true).ctx.inSwitch 0 .a = false
      ∧ governed (lastSwitch 51 true).ctx (lastSwitch 51 true).u (.roomEnd 0 .a) < 0)
    ∧ gives (.inSwitchChange 0 .a true) (lastSwitch 51 true)
        (fun t => t.u.rooms[0].state == .stowed && t.u.rooms[0].motion.isNone && t.ctx.roomIn 0)
    ∧ gives (.inSwitchChange 0 .a true) (lastSwitch 0 false)
        (fun t => t.u.rooms[0].state == .pinning && t.u.rooms[0].motion.isSome)
    ∧ ((engagingRoom.m.roomSw[(0 : Fin 6)]).engaged = false ∧ (engagingRoom.m.roomSw[(0 : Fin 6)]).withdrawn = false
      ∧ engagingRoom.ctx.locked 0 = true ∧ onlyMoves (.room 0) engagingRoom.u)
    ∧ gives (.lockSwitchChange 0 .engaged true) engagingRoom
        (fun t => t.u.rooms[0].state == .stowed && t.u.rooms[0].motion.isNone) :=
  ⟨⟨noneWait (by decide +kernel), by decide +kernel, onlyMoves_of (by decide +kernel) (by decide +kernel), by decide +kernel,
    by decide +kernel⟩, by decide +kernel, by decide +kernel,
    ⟨by decide +kernel, by decide +kernel, by decide +kernel, onlyMoves_of (by decide +kernel) (by decide +kernel)⟩, by decide +kernel⟩

/-- A jack operation in a step with jack 0 off its stowed switch and its valve UP, the others stowed or not. -/
def jackRising (st : JackStep) (others : Bool) : State :=
  let s := withJacks { jackRecord st 9000 with jogSet := [0], jogDir := .up } stowed
  { s with
    m := { s.m with jackStowed := (Vector.replicate 6 others).set 0 false }
    u := { s.u with image := { s.u.image with jackValve := (Vector.replicate 6 .off).set 0 .up } } }

/-- The awning driven in, off its stowed switch. -/
def awningComingIn : State := past (.awningMove .ml0 1 .inward .full none none) awningOut

/-- Stowed switches made: of the last jack of a retract, of one that is not the last, of the one jack of a jog up, and
of the awning. -/
theorem test_met_stowed_switches :
    (noRequestWaits (jackRising .retract true).c ∧ onlyMoves .jacks (jackRising .retract true).u)
    ∧ gives (.jackStowedSwitchChange 0 true) (jackRising .retract true)
        (fun t => t.ctx.jacksStowed && t.u.jacks.state == .stowed && t.u.jacks.motion.isNone)
    ∧ gives (.jackStowedSwitchChange 0 true) (jackRising .retract false)
        (fun t => !t.ctx.jacksStowed && t.u.jacks.motion.isSome && t.u.image.jackValve[0] == .off)
    ∧ gives (.jackStowedSwitchChange 0 true) (jackRising .jog true) (fun t => t.u.jacks.motion.isNone)
    ∧ (noRequestWaits awningComingIn.c ∧ onlyMoves .awning awningComingIn.u ∧ awningComingIn.m.awningStowed = false)
    ∧ gives (.awningStowedSwitchChange true) awningComingIn
        (fun t => t.u.awning.state == .stowed && t.u.awning.motion.isNone) :=
  ⟨⟨noneWait (by decide +kernel), onlyMoves_of (by decide +kernel) (by decide +kernel)⟩, by decide +kernel, by decide +kernel,
    by decide +kernel, ⟨noneWait (by decide +kernel), onlyMoves_of (by decide +kernel) (by decide +kernel), by decide +kernel⟩,
    by decide +kernel⟩

/-- The coach tilted beyond the tolerance, with a settle at its end after some passes, jack 0 at a count. -/
def tilted (passes : Nat) (count : Int) : State :=
  let s := withJacks { jackRecord .settle 5000 with passes := passes } levelSet
  { s with m := { s.m with
      now := 5000, tiltX := List.replicate 8 0, tiltY := List.replicate 8 900
      counterJ := Vector.replicate 6 { count := count, valid := true } } }

/-- A settle with a jack not in CONTACT; one outside the tolerance before the twelfth pass and at it, and with a lifted
jack at the max stroke; a hold of a room in PIN_ENGAGE. -/
theorem test_met_settles :
    ((withJacks (jackRecord .settle 5000) stowed).ctx.allContact = false)
    ∧ ((tilted 10 0).ctx.allContact = true ∧ (tilted 10 0).ctx.tolerance < rowError (tilted 10 0).m.tiltY
      ∧ 10 + 1 < 12 ∧ 12 ≤ 11 + 1 ∧ reached 5000 (tilted 10 0).m.now = true)
    ∧ gives .settleEnd (tilted 11 0) (fun t => t.u.jacks.state == .grounded && t.u.jacks.motion.isNone)
    ∧ gives .settleEnd (tilted 10 0) (fun t => t.u.jacks.motion.any fun k => k.step == .lift && k.passes == 11)
    ∧ (noRequestWaits (tilted 10 5000).c ∧ (tilted 10 5000).m.roadSpeed < 2 ∧ onlyMoves .jacks (tilted 10 5000).u
      ∧ (tilted 10 5000).ctx.maxStroke = 5000
      ∧ gives .settleEnd (tilted 10 5000) (fun t => t.u.jacks.state == .grounded && t.u.jacks.motion.isNone))
    ∧ groupHold (roomIn .pinEngage).u (.room 0) = .deadline 300 :=
  ⟨by decide +kernel, by decide +kernel, by decide +kernel, by decide +kernel,
    ⟨noneWait (by decide +kernel), by decide +kernel, onlyMoves_of (by decide +kernel) (by decide +kernel), by decide +kernel,
      by decide +kernel⟩, by decide +kernel⟩

/-- The manifold switching with no user, its switching time over, with a queue. -/
def switchedFree (q : List ManifoldWait) : State :=
  { stowed with u := { stowed.u with manifold := { stowed.u.manifold with
      state := .switching, user := none, queue := q, switchingEnd := some 0 } } }

/-- A switching end with no user: no queue, a head in the other circuit, a head in the circuit the diverter stands at. -/
theorem test_met_switching_ends :
    gives .switchingEnd (switchedFree []) (fun t => t.u.manifold.state == .idle)
    ∧ gives .switchingEnd
        (withJacks { jackRecord .turnWait 0 with deadline := none } (switchedFree [{ user := .jacks }]))
        (fun t => t.u.manifold.user == some .jacks && t.u.manifold.state == .switching)
    ∧ (switchedFree []).u.image.diverter = userCircuit (.room 1) ∧ userCircuit .jacks ≠ userCircuit (.room 1) := by
  decide +kernel

/-! ## Samples, road speed, switches and waits: what their events do -/

/-- Whether a notice waits on ML0. -/
def heard (b : NoticeBody) (t : State) : Bool := (t.u.out[linkIdx .ml0]).notices.any fun n => n.body == b

/-- The coach at the end of a road-speed window with some pulses counted, its jacks GROUNDED or STOWED. -/
def rolling (pulses : Nat) (st : JackSetState) : State :=
  let s := atTime 1000 { stowed with u := { stowed.u with jacks := { state := st } } }
  { s with m := { s.m with spdCount := pulses, jackStowed := Vector.replicate 6 (st == .stowed) } }

/-- Four pulses give 1 km/h and five give 2: ROAD_MOTION is raised at 2 with the jacks down, and a coach that its halt
makes travel-ready keeps no mark; stowed, its mark is cleared. -/
theorem test_met_road_motion :
    let marked' := fun t : State => marked (faultOf t.u .coach) .roadMotion
    (∀ p ∈ [4, 5], elapsed (rolling p .grounded).m.windowStart (rolling p .grounded).m.now 1000 = true
      ∧ noRequestWaits (rolling p .grounded).c)
    ∧ ((rolling 5 .grounded).c.phase = .run ∧ travelReady (rolling 5 .grounded).ctx (rolling 5 .grounded).u = false
      ∧ stepDue (rolling 5 .grounded).ctx (rolling 5 .grounded).u = none)
    ∧ gives .roadSpeedWindowEnd (rolling 4 .grounded) (fun t => t.m.roadSpeed == 1 && !marked' t)
    ∧ gives .roadSpeedWindowEnd (rolling 5 .grounded)
        (fun t => t.m.roadSpeed == 2 && marked' t && coachActive t.u && !t.u.chainEn && !travelReady t.ctx t.u)
    ∧ gives .roadSpeedWindowEnd { rolling 5 .grounded with m := (rolling 5 .stowed).m }
        (fun t => !marked' t && coachActive t.u && travelReady t.ctx t.u)
    ∧ (travelReady (rolling 5 .stowed).ctx (rolling 5 .stowed).u = true ∧ (rolling 5 .stowed).u.awning.retract = none)
    ∧ gives .roadSpeedWindowEnd
        (withRecord .coach { clearableRecord with state := .active, codes := [(.roadMotion, true)] } (rolling 5 .stowed))
        (fun t => !marked' t) := by
  refine ⟨fun p hp => ?_, by decide +kernel, by decide +kernel, by decide +kernel, by decide +kernel, by decide +kernel,
    by decide +kernel⟩
  fin_cases hp <;> exact ⟨by decide +kernel, noneWait (by decide +kernel)⟩

/-- A jack operation of ML0, whose transmitter is busy, in a step, jack 0 out of CONTACT and the others in CONTACT or
not. -/
def seeking (st : JackStep) (k : JackKind) (lost others : Bool) : State :=
  let s := withJacks { jackRecord st 9000 with kind := k, unreachable := lost } busy
  { s with m := { s.m with pjLast := (Vector.replicate 6 (if others then some 3000 else none)).set 0 none } }

/-- An idle jack set in a state, off its switches, every jack in CONTACT but jack 0, which is so or not. -/
def standing (st : JackSetState) (contact : Bool) : State :=
  { jacksOff with
    m := { jacksOff.m with
      counterJ := Vector.replicate 6 { count := 10, valid := true }
      pjLast := (Vector.replicate 6 (some 3000)).set 0 (if contact then some 3000 else none) }
    u := { jacksOff.u with jacks := { state := st } } }

/-- PJ samples at the contact threshold and one below it: in a seek, alone, of an AUTO operation and with a jack left; in
a reseek with and without the UNREACHABLE mark; of an idle set. -/
theorem test_met_seek_samples :
    (noRequestWaits (seeking .seek .seek false true).c ∧ onlyMoves .jacks (seeking .seek .seek false true).u
      ∧ (seeking .seek .seek false true).m.roadSpeed < 2 ∧ stowed.ctx.jackField 1 = 250)
    ∧ gives (.pjSample 0 250) (seeking .seek .seek false true) (fun t => t.u.jacks.motion.isNone
        && t.u.jacks.state == .grounded && heard (.motionDone .jacks .completed 0) t)
    ∧ gives (.pjSample 0 249) (seeking .seek .seek false true) (fun t => t.u.jacks.motion.isSome
        && t.u.image.jackValve[0] == .down && t.u.image.jackValve[1] == .off)
    ∧ gives (.pjSample 0 250) (seeking .seek .seek false false) (fun t => t.u.jacks.motion.isSome
        && t.u.image.jackValve[0] == .off && t.u.image.jackValve[1] == .down)
    ∧ gives (.pjSample 0 250) (seeking .seek .auto false true) (fun t => t.u.jacks.state == .levelling
        && t.u.jacks.motion.any fun k => k.step == .settle && k.deadline == some 1000)
    ∧ gives (.pjSample 0 250) (seeking .reseek .auto true true) (fun t => t.u.jacks.state == .grounded
        && heard (.motionDone .jacks .unreachable 0) t)
    ∧ gives (.pjSample 0 250) (seeking .reseek .auto false true)
        (fun t => t.u.jacks.motion.any fun k => k.step == .settle)
    ∧ (gives (.pjSample 0 249) (standing .levelled true) (fun t => t.u.jacks.state == .partway)
      ∧ gives (.pjSample 0 250) (standing .levelled true) (fun t => t.u.jacks.state == .levelled)
      ∧ gives (.pjSample 0 250) (standing .partway false) (fun t => t.u.jacks.state == .grounded)) :=
  ⟨⟨noneWait (by decide +kernel), onlyMoves_of (by decide +kernel) (by decide +kernel), by decide +kernel⟩, by decide +kernel,
    by decide +kernel, by decide +kernel, by decide +kernel, by decide +kernel, by decide +kernel, by decide +kernel⟩

/-- A lift of the pitch of ML0 with threshold 100, every jack in CONTACT or none. -/
def lifting (contact : Bool) : State :=
  let s := withJacks { jackRecord .lift 5000 with liftAxis := some .x, lifted := [2, 3], threshold := 100 } busy
  { s with
    m := { s.m with pjLast := Vector.replicate 6 (if contact then some 3000 else none) }
    u := { s.u with image := { s.u.image with
      jackValve := ((Vector.replicate 6 .off).set 2 .down).set 3 .down } } }

/-- A LEVELLED set of ML0 at a coach time, rolled by an average, its drift measured since 0. -/
def drifting (now : CoachTime) (roll : Int) : State :=
  let s := atTime now (withClaim .jacks (claimBy .ml0) busy)
  { s with
    m := { s.m with pjLast := Vector.replicate 6 (some 3000), tiltX := List.replicate 8 0
                    tiltY := List.replicate 8 roll }
    u := { s.u with jacks := { state := .levelled, drift := some 0 } } }

/-- Tilt samples at the lift's threshold and one above it, of its axis and the other; of a LEVELLED set at and above
twice the tolerance, before and after 60 s. -/
theorem test_met_lifts_and_drift :
    (noRequestWaits (lifting true).c ∧ onlyMoves .jacks (lifting true).u ∧ (lifting true).m.roadSpeed < 2
      ∧ (lifting true).ctx.tolerance < 100 ∧ ∀ j ∈ [(2 : Fin 6), 3], ((lifting true).m.counterJ[j]).count
        < (lifting true).ctx.maxStroke)
    ∧ gives (.tiltSample .x 100) (lifting true) (fun t => t.u.jacks.motion.any fun k => k.step == .settle)
    ∧ gives (.tiltSample .x (-100)) (lifting false) (fun t => t.u.image.jackValve[0] == .down
        && t.u.jacks.motion.any fun k => k.step == .reseek && k.lifted.isEmpty)
    ∧ (∀ i ∈ [Instr.tiltSample .x 101, .tiltSample .y 0], gives i (lifting true)
        (fun t => t.u.jacks.motion == (lifting true).u.jacks.motion && t.u.image.jackValve[2] == .down))
    ∧ (noRequestWaits (drifting 59999 61).c ∧ onlyMoves .jacks (drifting 59999 61).u
      ∧ (drifting 0 0).ctx.tolerance = 30 ∧ holderOf (drifting 0 0).u .jacks = some (.link .ml0))
    ∧ gives (.tiltSample .y 60) (drifting 59999 60) (fun t => t.u.jacks.drift == none)
    ∧ gives (.tiltSample .y 61) (drifting 59999 61) (fun t => t.u.jacks.drift == some 0)
    ∧ gives (.tiltSample .y (-61)) (drifting 60000 (-61)) (fun t => t.u.jacks.drift == none
        && t.u.jacks.state == .levelled && heard (.advisory (.drift 0 (-61))) t) :=
  ⟨⟨noneWait (by decide +kernel), onlyMoves_of (by decide +kernel) (by decide +kernel), by decide +kernel⟩, by decide +kernel,
    by decide +kernel, by decide +kernel,
    ⟨noneWait (by decide +kernel), onlyMoves_of (by decide +kernel) (by decide +kernel), by decide +kernel⟩,
    by decide +kernel, by decide +kernel, by decide +kernel⟩

/-- The coach with a lock on ROOM1 as well. -/
def twoLocks : State :=
  { busy with c := { busy.c with
      profile := some (coachProfile.stage busy.m.straps (.room 1) [(4, 1), (7, 20)]).committed } }

/-- Room n in UNPINNING, its pin between its switches, with some consumers admitted. -/
def unpinning (n : Fin 6) (l : List Admission) : State :=
  let k := { roomRecord with step := RoomStep.unpin, dwellEnd := none }
  { twoLocks with
    m := { twoLocks.m with roomSw := twoLocks.m.roomSw.set n { inA := true, inB := true } }
    u := { twoLocks.u with
      rooms := twoLocks.u.rooms.set n { state := .unpinning, motion := some k }
      admissions := { consumer := .pin n, allocation := 20, stamp := 0 } :: l
      image := { twoLocks.u.image with pin := twoLocks.u.image.pin.set n true } } }

/-- An allocation that leaves room for nothing but the awning. -/
def greedy : Admission := { consumer := .drive 5, allocation := 1380, stamp := 0 }

/-- The lock's WITHDRAWN in UNPINNING: an ELECTRIC room whose drive is admitted and one that waits; a HYDRAULIC room that
opens its valve, one that waits for the pump and one that waits for the diverter. -/
theorem test_met_withdrawals :
    let made := fun n => Instr.lockSwitchChange n .withdrawn true
    (∀ n ∈ [(0 : Fin 6), 1], (unpinning n []).ctx.locked n = true
      ∧ ((unpinning n []).m.roomSw[n]).engaged = false ∧ ((unpinning n []).m.roomSw[n]).withdrawn = false
      ∧ (unpinning n []).m.wind.hold = false ∧ (unpinning n []).u.awning.ignitionMark = false
      ∧ (unpinning n []).m.roadSpeed < 2
      ∧ ∀ e ∈ (unpinning n []).ctx.ends n, (unpinning n []).ctx.endCount n e < (unpinning n []).ctx.roomStroke n)
    ∧ (noRequestWaits (unpinning 0 []).c ∧ onlyMoves (.room 0) (unpinning 0 []).u
      ∧ onlyMoves (.room 1) (unpinning 1 []).u)
    ∧ gives (made 0) (unpinning 0 []) (fun t => t.u.rooms[0].state == .extending && t.u.image.pin[0]
        && t.u.image.motorA[0] == { dir := .outward, duty := 20 }
        && t.u.image.motorB[0] == { dir := .outward, duty := 20 } && admitted t.u (.drive 0))
    ∧ gives (made 0) (unpinning 0 [greedy]) (fun t => t.u.rooms[0].state == .waiting && Machine.queued t.u (.drive 0)
        && t.u.rooms[0].motion.any fun k => k.step == .driveWait && k.pinDeadline == none)
    ∧ gives (made 1) (unpinning 1 []) (fun t => t.u.rooms[1].state == .extending && t.u.image.pump
        && t.u.image.roomValve[1] == .extend && t.u.manifold.user == some (.room 1))
    ∧ gives (made 1) (unpinning 1 [greedy]) (fun t => t.u.rooms[1].state == .waiting
        && t.u.manifold.state == .awaitBudget && t.u.manifold.user == some (.room 1))
    ∧ gives (made 1)
        (let s := unpinning 1 []
         { s with u := { s.u with manifold := { s.u.manifold with state := .switching, user := some .jacks } } })
        (fun t => t.u.rooms[1].state == .waiting && t.u.manifold.queue.any fun w => w.user == .room 1) :=
  ⟨by decide +kernel, ⟨noneWait (by decide +kernel), onlyMoves_of (by decide +kernel) (by decide +kernel),
    onlyMoves_of (by decide +kernel) (by decide +kernel)⟩, by decide +kernel, by decide +kernel, by decide +kernel,
    by decide +kernel, by decide +kernel⟩

/-- An idle room, jack set and awning whose switch changes. -/
theorem test_met_idle_follows :
    (noRequestWaits stowed.c ∧ onlyMoves .jacks stowed.u ∧ onlyMoves .awning stowed.u ∧ stowed.ctx.roomPresent 0 = true
      ∧ stowed.ctx.jackPresent 0 = true ∧ stowed.ctx.awningPresent = true ∧ activeShadowed stowed.ctx stowed.u = [])
    ∧ (∀ i ∈ [Instr.inSwitchChange 0 .b false, .lockSwitchChange 0 .engaged false, .lockSwitchChange 0 .withdrawn true],
      gives i stowed (fun t => t.u.rooms[0].state == .partway))
    ∧ gives (.lockSwitchChange 0 .withdrawn true)
        { stowed with u := { stowed.u with rooms := stowed.u.rooms.set 0 { state := .out } } }
        (fun t => t.u.rooms[0].state == .out)
    ∧ gives (.jackStowedSwitchChange 0 false) stowed (fun t => t.u.jacks.state == .partway)
    ∧ gives (.awningStowedSwitchChange false) stowed (fun t => t.u.awning.state == .out) :=
  ⟨⟨noneWait (by decide +kernel), onlyMoves_of (by decide +kernel) (by decide +kernel),
    onlyMoves_of (by decide +kernel) (by decide +kernel), by decide +kernel⟩, by decide +kernel, by decide +kernel,
    by decide +kernel, by decide +kernel⟩

/-- A shadowed room driving past the awning: the awning keeps its state as its switch opens. -/
theorem test_met_shadowed_awning :
    let p := some (coachProfile.stage busy.m.straps (.room 0) [(3, 1)]).committed
    let s := { stowed with
      c := { stowed.c with profile := p }
      u := { stowed.u with rooms := stowed.u.rooms.set 0 { state := .extending, motion := some roomRecord } } }
    activeShadowed s.ctx s.u ≠ [] ∧ s.u.awning.motion = none
    ∧ gives (.awningStowedSwitchChange false) s (fun t => t.u.awning.state == .stowed) := by decide +kernel

/-- A retract of the jacks by ML0, whose transmitter is busy, in a step, jack 0 off its stowed switch. -/
def retracting (st : JackStep) : State :=
  let s := withJacks { jackRecord st 9000 with kind := .retract } busy
  { s with m := { s.m with jackStowed := s.m.jackStowed.set 0 false } }

/-- ROOM0 leaves STOWED in each step of a retract: by its pin, by its other lock switch, by its in-switch. -/
theorem test_met_retract_stopped :
    (noRequestWaits (retracting .retract).c ∧ onlyMoves .jacks (retracting .retract).u
      ∧ (retracting .retract).ctx.jacksStowed = false ∧ (retracting .retract).u.rooms[0].state = .stowed)
    ∧ ∀ p ∈ [(Instr.lockSwitchChange 0 .engaged false, JackStep.turnWait), (.lockSwitchChange 0 .withdrawn true, .pause),
        (.inSwitchChange 0 .a false, .retract)],
      gives p.1 (retracting p.2) (fun t => t.ctx.roomSettled 0 == .partway && t.u.jacks.motion.isNone
        && t.u.jacks.state == t.ctx.jacksSettled && heard (.motionDone .jacks .stopped 0) t) :=
  ⟨⟨noneWait (by decide +kernel), onlyMoves_of (by decide +kernel) (by decide +kernel), by decide +kernel⟩, by decide +kernel⟩

/-- The awning at its dwell's end, AWNING admitted or waiting, short of its target and at it, and before IN. -/
theorem test_met_awning_dwells :
    let s := fun (k : AwningMotion) (l : List Admission) =>
      { atTime 500 awningHeld with u := { awningHeld.u with
        admissions := l, awning := { awningHeld.u.awning with motion := some k } } }
    let has := [{ consumer := Consumer.awning, allocation := 100, stamp := 0 }]
    awningDwellEnd (s awningRecord has).u = some 500 ∧ reached 500 (s awningRecord has).m.now = true
    ∧ gives .awningDwellEnd (s awningRecord has) (fun t => t.u.image.awningMotor == { dir := .outward, duty := 20 }
        && t.u.awning.ramp == 500 && awningStep t.u == some .drive)
    ∧ gives .awningDwellEnd (s { awningRecord with dir := .inward } has)
        (fun t => t.u.image.awningMotor == { dir := .inward, duty := 20 })
    ∧ gives .awningDwellEnd (s { awningRecord with target := some 1000 } has)
        (fun t => t.u.image.awningMotor == {} && t.u.awning.motion.isNone)
    ∧ gives .awningDwellEnd (s awningRecord [])
        (fun t => t.u.image.awningMotor == {} && awningStep t.u == some .dwell) := by decide +kernel

/-- ML0 takes the jacks from ML1: CLAIM_LOST to ML1, CLAIM_GRANTED to ML0, nothing to ML2, and the entry and the group
in ML0's other entry are gone; an entry of ML2 stays. -/
theorem test_met_preemption :
    let on := fun (l : Link) (s : State) => withPort s l { linked := true }
    let more := { entry with missing := [Group.jacks, .awning], asked := [.jacks, .awning] }
    let s := on .ml0 (on .ml1 (on .ml2 (atTime 20000 waiting)))
    let u := { s.u with waitList := [entry, more, { entry with link := .ml2 }] }
    let v := firstTest 0 entry s.ctx u
    entry.missing.filter (fun g => holderOf u g == some (.link .ml1)) = [.jacks]
    ∧ (∀ w ∈ u.waitList, w.missing ≠ [])
    ∧ (v.out[linkIdx .ml1]).notices = [{ stamp := 20000, body := .claimLost [.jacks] (.link .ml0) }]
    ∧ (v.out[linkIdx .ml0]).notices = [{ stamp := 20000, body := .claimGranted 1 [.jacks] 20000 }]
    ∧ (v.out[linkIdx .ml2]).notices = []
    ∧ v.waitList = [{ more with missing := [.awning] }, { entry with link := .ml2 }] := by decide +kernel

/-- R59, R75: a locked HYDRAULIC room stopped while PUMP waits for its turn: PIN 1 is given up, and PUMP, which then fits,
is not admitted in the event, so its heat interval stays (log 76). -/
theorem test_ending_room_leaves_its_pump : gives (.roomStop .ml0 1 (.room 1))
    (let s := unpinning 1 []
     { s with
       m := { s.m with now := 50, bLim := 715, roomSw := s.m.roomSw.set 1 { withdrawn := true } }
       u := { s.u with
         rooms := s.u.rooms.set 1 { state := .waiting, motion := some { roomRecord with
           step := .driveWait, pinDeadline := none, dwellEnd := none } }
         budgetQueue := [{ driveWaits with consumer := .pump, allocation := 600 }]
         manifold := { s.u.manifold with state := .awaitBudget, user := some (.room 1) } } })
    (fun t => t.u.rooms[1].motion == none && t.u.manifold.state == .idle && t.u.budgetQueue.isEmpty
      && t.u.admissions.isEmpty && t.u.manifold.heatStart == 0) = true := by decide +kernel

/-- A line ACTIVE written INACTIVE loses writer and deadline (R158); an INACTIVE one written INACTIVE keeps what it
has. -/
theorem test_line_written_inactive : gives (.linesSet .ml0 1 [(.virtual 0, false)]) lineOn (fun t =>
    t.c.virt[0].value == false && t.c.virt[0].writer == none && t.c.virt[0].deadline == none) = true
    ∧ (Line.virtual 0, false) ∈ ([(.virtual 0, false)] : List (Line × Bool))
    ∧ (lineOn.c.virt[(0 : Fin 8)]).value = true ∧ (lineOn.c.virt[(1 : Fin 8)]).value = false := by decide +kernel

/-- R55: a fall of the limit that sheds PIN 0 and DRIVE 0 of a room in UNPINNING sends one PAUSED(BUDGET). -/
theorem test_one_pause_for_two_consumers : gives (.vbatSample 1080)
    (let s := withRoom { roomRecord with step := .unpin } busy
     { s with u := { s.u with
        rooms := s.u.rooms.set 0 { s.u.rooms[0] with state := .unpinning }
        admissions := [{ consumer := .drive 0, allocation := 100, stamp := 0 }
                       , { consumer := .pin 0, allocation := 60, stamp := 0 }] } })
    (fun t => t.u.admissions.isEmpty && t.u.rooms[0].state == .paused && ((t.u.out[linkIdx .ml0]).notices.filter
      fun n => n.body == .paused (.room 0) .budget).length == 1) = true := by decide +kernel

/-- R109: a drive that begins at its readmission drives both ends anew, one that goes on drives the ends it had. -/
theorem test_readmitted_drive :
    (admitQueued shedRoom.ctx driveWaits shedRoom.u).image.motorB[0] = { dir := .outward, duty := 20 }
    ∧ (let s := withRoom ({ roomRecord with step := .pause, lostDrive := true, pinDeadline := none, dwellEnd := none
                                            begun := true }) shedRoom
      (admitQueued s.ctx driveWaits s.u).image.motorB[0] = {}) := by decide +kernel

end Sys2Proof.Tests
end

/-! SUPPORT. The notices of the master links: what an offered notice does to its queue, and what the departure of a
notice leaves there (R192). -/
namespace Sys2Proof.LinkNotices
open Sys2Proof.Machine Sys2Proof.Safety Sys2Proof.Laws

theorem isPostureChanged_iff (n : Notice) : isPostureChanged n = true ↔ n.body = .postureChanged := by
  obtain ⟨stamp, body⟩ := n
  cases body <;> simp [isPostureChanged]

/-! ## One queue -/

section
variable {n : Notice} {p : PortOut}

theorem offerPort_of_second_posture (hn : n.body = .postureChanged)
    (hw : ∃ k ∈ p.notices, k.body = .postureChanged) : offerPort n p = p := by
  simp only [← isPostureChanged_iff] at hn hw
  simp [offerPort, hn, hw]

/-- The test for a second POSTURE_CHANGED fails for a notice of another kind, and where none waits. -/
theorem not_second_posture (h : n.body ≠ .postureChanged ∨ ∀ k ∈ p.notices, k.body ≠ .postureChanged) :
    (isPostureChanged n && p.notices.any isPostureChanged) = false := by
  simpa [← isPostureChanged_iff, or_iff_not_imp_left] using h

theorem offerPort_of_room (h : n.body ≠ .postureChanged ∨ ∀ k ∈ p.notices, k.body ≠ .postureChanged)
    (hr : p.notices.length < Config.noticeMax) : offerPort n p = { p with notices := p.notices ++ [n] } := by
  simp [offerPort, not_second_posture h, hr]

theorem offerPort_of_full (h : n.body ≠ .postureChanged ∨ ∀ k ∈ p.notices, k.body ≠ .postureChanged)
    (hf : Config.noticeMax ≤ p.notices.length) :
    offerPort n p = { p with lostFlag := true, lostCount := min 255 (p.lostCount + 1) } := by
  simp [offerPort, not_second_posture h, hf]

end

theorem afterDeparture_of_lost {p : PortOut} (h : p.lostFlag = true) (now : CoachTime) (rest : List Notice) :
    afterDeparture now rest p = { p with
      notices := rest ++ [{ stamp := now, body := .noticesLost p.lostCount }], lostFlag := false, lostCount := 0 } :=
  if_pos h

/-- A free transmitter with no response to send takes up the oldest notice (R190). -/
theorem tx_notice (m : Measured) (g : Generation) {p : PortIn} {o : PortOut} {k : Notice} {rest : List Notice}
    (hs : p.sending = none) (hl : o.line = []) (hn : o.notices = k :: rest) :
    tx m g p o = ({ p with sending := some (noticeFrame m.now g k) }, afterDeparture m.now rest o) := by
  simp [tx, hs, hl, hn]

/-! ## One link -/

section
variable {x : Ctx} {l : Link} (b : NoticeBody) (u : Units)

theorem offerTo_of_silent (h : x.linked l = false) : offerTo x l b u = u := by
  simp [offerTo, h]

theorem offerTo_of_linked (h : x.linked l = true) :
    offerTo x l b u = withOut u l (offerPort { stamp := x.now, body := b } u.out[linkIdx l]) :=
  if_pos h

theorem withOut_self (l : Link) : withOut u l u.out[linkIdx l] = u := by
  simp [withOut]

end

theorem transmit_notice_units (m : Measured) (l : Link) (d : Desk) {k : Notice} {rest : List Notice}
    (hs : (d.c.ports[linkIdx l]).sending = none) (hl : (d.u.out[linkIdx l]).line = [])
    (hn : (d.u.out[linkIdx l]).notices = k :: rest) :
    (transmit m l d).u = withOut d.u l (afterDeparture m.now rest d.u.out[linkIdx l]) := by
  rw [transmit_eq, tx_notice m _ hs hl hn]
  rfl

/-- Settles O27: the clauses are the branches of `offerTo` and `offerPort`, and the departure of the oldest notice. -/
theorem noticesAreOfferedAndCountedWhenLost : Obligations.NoticesAreOfferedAndCountedWhenLost := by
  intro x l b u o n
  refine ⟨offerTo_of_silent b u, fun hx hb hw => ?second, fun hx hb hr => ?joins, fun hx hb hf => ?lost,
    fun c k rest hs hl hn hlost => ?leaves⟩
  case second => rw [offerTo_of_linked b u hx, offerPort_of_second_posture hb hw, withOut_self]
  case joins => rw [offerTo_of_linked b u hx, offerPort_of_room hb hr]
  case lost => rw [offerTo_of_linked b u hx, offerPort_of_full hb hf]
  case leaves =>
    rw [transmit_notice_units x.m l { c := c, u := u } hs hl hn, afterDeparture_of_lost hlost]
    rfl

end Sys2Proof.LinkNotices

/-! SUPPORT. HOLD_REFRESH (R195): the group byte it reads, checks 2 and 3 of R17 on one group, and the motion whose
deadline it moves. -/
namespace Sys2Proof.HoldRefresh
open Sys2Proof.Machine Sys2Proof.Safety

/-! ## The group byte -/

theorem groupByte_toNat_lt (g : Group) : (groupByte g).toNat < 8 := by
  simp only [groupByte, byte, BitVec.toNat_ofNat]
  omega

theorem readGroup_of_unnamed {b : Byte} (h : 8 ≤ b.toNat) : readGroup b = none := by
  refine List.find?_eq_none.2 fun g _ hg => ?_
  have hlt := groupByte_toNat_lt g
  rw [eq_of_beq hg] at hlt
  omega

theorem readRequest_holdRefresh_of_unnamed {b : Byte} (h : 8 ≤ b.toNat) :
    readRequest 20#8 [b] = .malformed 20#8 := by
  have hp : readParameters (20#8 : Byte).toNat [b] = none := by
    show (readGroup b).map Request.holdRefresh = none
    rw [readGroup_of_unnamed h]
    rfl
  rw [readRequest, hp]
  rfl

/-! ## Checks 2 and 3 of R17 on one group -/

/-- Of the eight groups one alone stands in a set of one. -/
theorem allGroups_filter_singleton (g : Group) : (allGroups.filter fun h => [g].contains h) = [g] := by
  cases g with
  | room n => exact (by decide : ∀ n : Fin 6, (allGroups.filter fun h => [Group.room n].contains h) = [.room n]) n
  | jacks => decide
  | awning => decide

section
variable {x : Ctx}

theorem checkPresent_of_config (h : x.c.phase = .config) (gs : List Group) :
    checkPresent x gs = some (.notConfigured, []) := by
  simp [checkPresent, Ctx.running, h]

theorem checkPresent_singleton (h : x.c.phase = .run) (g : Group) :
    checkPresent x [g] = if x.present g then none else some (.absent, [groupByte g]) := by
  simp only [checkPresent, absentGroup, allGroups_filter_singleton, Ctx.running, h]
  cases hg : x.present g <;> simp [hg]

end

/-! ## The motion -/

theorem holdsMotion_iff (u : Units) (g : Group) (l : Link) :
    holdsMotion u g l = true ↔ motionOwner u g = some (.link l, .hold) := by
  cases g <;> simp [holdsMotion, motionOwner, Option.any_eq_true]

section
variable {u : Units} (h : HoldSource)

theorem setHold_room {n : Fin 6} {mo : RoomMotion} (hm : u.rooms[n].motion = some mo) :
    setHold (.room n) h u = { u with
      rooms := u.rooms.set n { u.rooms[n] with motion := some { mo with hold := h } } } := by
  simp only [setHold, updRoomMotion, updRoom, hm, Option.map_some]

theorem setHold_jacks {mo : JackMotion} (hm : u.jacks.motion = some mo) :
    setHold .jacks h u = { u with jacks := { u.jacks with motion := some { mo with hold := h } } } := by
  simp only [setHold, updJackMotion, updJacks, hm, Option.map_some]

theorem setHold_awning {mo : AwningMotion} (hm : u.awning.motion = some mo) :
    setHold .awning h u = { u with awning := { u.awning with motion := some { mo with hold := h } } } := by
  simp only [setHold, updAwning, hm, Option.map_some]

end

/-! ## The decision -/

section
variable {x : Ctx} {l : Link} {g : Group} {u : Units}

theorem holdRefresh_of_refused {r : Reply} (h : checkPresent x [g] = some r) : holdRefresh x l g u = (u, r) := by
  simp only [holdRefresh, h]

theorem holdRefresh_of_not_held (h : checkPresent x [g] = none) (ho : motionOwner u g ≠ some (.link l, .hold)) :
    holdRefresh x l g u = (u, .notMoving, []) := by
  simp [holdRefresh, h, holdsMotion_iff, ho]

theorem holdRefresh_of_held (h : checkPresent x [g] = none) (ho : motionOwner u g = some (.link l, .hold)) :
    holdRefresh x l g u
      = (setHold g (.deadline (after x.now x.deadman)) u, .ok, stampBytes (after x.now x.deadman)) := by
  simp [holdRefresh, h, holdsMotion_iff, ho]

end

theorem decideRequest_holdRefresh (m : Measured) (l : Link) (tag : Byte) (g : Group) (d : Desk) :
    decideRequest m l tag (.holdRefresh g) d = atUnits d.c (holdRefresh (d.ctx m) l g d.u) :=
  rfl

/-- Settles O35: the refusals are those of checks 1 to 3 and of a motion that is not the link's own HOLD motion; what
is left writes the hold source of that one motion record. -/
theorem holdRefreshMovesTheDeadline : Obligations.HoldRefreshMovesTheDeadline := by
  intro m l tag g d x t r
  have hr : r = atUnits d.c (holdRefresh x l g d.u) := decideRequest_holdRefresh m l tag g d
  have passes (hp : d.c.phase = .run) (hg : x.present g = true) : checkPresent x [g] = none := by
    rw [checkPresent_singleton hp, if_pos hg]
  refine ⟨fun b => readRequest_holdRefresh_of_unnamed, rfl, fun hp => ?config, fun hp hg => ?absent,
    fun hp hg ho => ?notMoving, fun hp hg ho => ?held⟩
  case config => rw [hr, holdRefresh_of_refused (checkPresent_of_config hp [g])]; rfl
  case absent =>
    have refused : checkPresent x [g] = some (.absent, [groupByte g]) := by
      rw [checkPresent_singleton hp, hg]; rfl
    rw [hr, holdRefresh_of_refused refused]; rfl
  case notMoving => rw [hr, holdRefresh_of_not_held (passes hp hg) ho]; rfl
  case held =>
    rw [hr, holdRefresh_of_held (passes hp hg) ho]
    refine ⟨rfl, rfl, ?_, ?_, ?_⟩
    · rintro n mo rfl hm
      exact setHold_room _ hm
    · rintro mo rfl hm
      exact setHold_jacks _ hm
    · rintro mo rfl hm
      exact setHold_awning _ hm

end Sys2Proof.HoldRefresh
